-- ==== Sys2Proof/Word.lean ====
section
/-! DEFINITION. The bit-vector types of the block: register bytes, bus addresses and the words of its two ports (R6, R83, R86, R69). -/

namespace Sys2Proof

/-- One register or one work-area byte: "register width 8 bits" (R6). -/
abbrev Byte := BitVec 8

/-- An address of the one 16-bit byte-addressed register space (R6, R49). -/
abbrev Address := BitVec 16

/-- A REQ16 request word (R83). -/
abbrev ReqWord := BitVec 16

/-- A BUS25 bus word (R86). -/
abbrev BusWord := BitVec 25

/-- A DESC64 descriptor image, byte 0 in bits 63:56 (R69). -/
abbrev Image := BitVec 64

/-- A logical block address (R6, R12). -/
abbrev Lba := BitVec 32

end Sys2Proof
end

