-- ==== Sys2Proof/Config.lean ====
section
/-! DEFINITION. What one machine fixes and what the spec leaves free: the eleven register names and their open addresses,
the two parameters MODE_OTHER and TAG_READBACK (R7), and the free values (R43, R46, R32). -/

namespace Sys2Proof

/-- The eleven named registers of the engine block, in the row order of the register map (R28). -/
inductive Reg where
  | statusA | control | busyB | trigger | opcode | cmdStatus | issue | tag | lbaR0 | lbaR1 | lbaR2
  deriving DecidableEq, Repr

/-- The parameters `A_*` (R7, D1): one 16-bit address per named register, pairwise distinct (`addresses_distinct`). -/
structure AddressMap where
  aStatusA : Address
  aControl : Address
  aBusyB : Address
  aTrigger : Address
  aOpcode : Address
  aCmdStatus : Address
  aIssue : Address
  aTag : Address
  aLbaR0 : Address
  aLbaR1 : Address
  aLbaR2 : Address
  distinct : [aStatusA, aControl, aBusyB, aTrigger, aOpcode, aCmdStatus, aIssue, aTag, aLbaR0, aLbaR1, aLbaR2].Nodup
  deriving DecidableEq, Repr

/-- The address of a named register. -/
def AddressMap.addrOf (m : AddressMap) : Reg → Address
  | .statusA => m.aStatusA
  | .control => m.aControl
  | .busyB => m.aBusyB
  | .trigger => m.aTrigger
  | .opcode => m.aOpcode
  | .cmdStatus => m.aCmdStatus
  | .issue => m.aIssue
  | .tag => m.aTag
  | .lbaR0 => m.aLbaR0
  | .lbaR1 => m.aLbaR1
  | .lbaR2 => m.aLbaR2

/-- `MODE_OTHER` (R7, D7): what ISSUE does with a mode that is not 1, 2 or 3. -/
inductive ModeOther where
  | refuse | asMode1
  deriving DecidableEq, Repr

/-- What a read of a written register returns: the last byte written, or any byte (R42, R43). -/
inductive Readback where
  | storage | draw
  deriving DecidableEq, Repr, Inhabited

/-- The implementation parameters of R7, and one of the model's own (log 33). State holds one such record, which no step changes
(log 4, log 5). -/
structure Params where
  addrs : AddressMap
  modeOther : ModeOther
  /-- `TAG_READBACK` (R7, D9): what the read in the TAG read-modify-write returns. -/
  tagReadback : Readback
  /-- The model's own parameter: what an exposed read of TRIGGER returns, for which R93 says the stored byte and U5 of
  93_implementation_defined.md "any value" (log 33). -/
  triggerReadback : Readback
  deriving DecidableEq, Repr

/-- FREE VALUE (log 3, log 36): the `draw_8` of R43, R60, R42 and R21, one for each draw that finds `env` empty. It has no body. -/
opaque Config.draw : Nat → Byte

/-- FREE VALUE (log 6): the `draw_3` of R46 made at reset for each of the two counters. It has no body. -/
opaque Config.drawThree : Nat → BitVec 3

/-- FREE VALUE (log 4): an unknown permutation of the address space. The images of eleven different addresses under it are
eleven arbitrary different addresses, which is what D1 leaves open. It has no body. -/
opaque Config.addressPerm : Equiv.Perm Address

/-- The open address binding of the machine after power-on (R7, D1, log 4). -/
def Config.addrs : AddressMap where
  aStatusA := Config.addressPerm 0
  aControl := Config.addressPerm 1
  aBusyB := Config.addressPerm 2
  aTrigger := Config.addressPerm 3
  aOpcode := Config.addressPerm 4
  aCmdStatus := Config.addressPerm 5
  aIssue := Config.addressPerm 6
  aTag := Config.addressPerm 7
  aLbaR0 := Config.addressPerm 8
  aLbaR1 := Config.addressPerm 9
  aLbaR2 := Config.addressPerm 10
  distinct := by simp [List.nodup_cons]

/-- FREE VALUE (log 33): whether TRIGGER reads back, which is "not stated" (R32). It has no body. -/
opaque Config.triggerReadback : Readback

/-- The parameters after power-on: open addresses, the spec's defaults (R7, log 5), and the open read-back of TRIGGER (log 33). -/
def Config.params : Params where
  addrs := Config.addrs
  modeOther := .refuse
  tagReadback := .storage
  triggerReadback := Config.triggerReadback

end Sys2Proof
end

