-- ==== Sys2Proof/Syntax.lean ====
section
/-! DEFINITION. The block's operations, one constructor for each of the 53 rows of spec/opcode_table.json, and the words that
have a code. -/

namespace Sys2Proof

/-- The operations. Ignored bits of an encoding are no operands (R84, R86, R90). -/
inductive Instr where
  -- REQ16 requests (R83 to R88)
  | issue
  | checkBusy
  | wait
  | slotAddress
  /-- The raw 4-bit field code: 11 to 15 are encodings too, which the block refuses (R152). -/
  | waWrite (field : BitVec 4) (data : Byte)
  | waRead (field : BitVec 4)
  | reservedOp0
  | reservedOp7
  /-- `op_sel = 1ooo`; the operand is the low three bits of `op_sel` (R154). -/
  | reservedOp8F (op : BitVec 3)
  -- BUS25 transactions (R86)
  | regRd (addr : Address)
  | regWr (addr : Address) (v : Byte)
  -- DESC64 images (R69, R78): the bytes LBA_R0, LBA_R1 and LBA_R2
  | descRwM1 (b c d : Byte)
  | descRwM23 (b c d : Byte)
  -- the sequencer's steps, selected by position (R23)
  | stepI1
  | stepI2
  | stepI3
  | stepI4a
  | stepI4b
  | stepI4c
  | stepI5
  | stepI6
  | stepI7
  | stepI8M1
  | stepI8M23
  | stepC1a
  | stepC1b
  | stepC1c
  | stepC1d
  | stepW2
  | stepW3a
  | stepW3b
  | stepW4
  | stepI9
  | stepW5
  | stepW6
  | stepW7
  -- internal functions and sequences
  | muxSel (addr : Address)
  | bitTest (v : Byte) (i : Fin 8)
  | setBit (addr : Address) (i : Fin 8)
  | combine (v s : Byte)
  | trigSel (m : Byte)
  | issueBits (p : Byte)
  | lbaSplit (l : Lba)
  | build
  | desc (l : Lba) (mode : Byte)
  | busyFn (a b : Byte)
  /-- The samples `(a, b)` observed, or none if no sample has been taken since reset (R124). -/
  | classify (sample : Option (Byte × Byte))
  | waitCompletion
  | slotAddr (slot : BitVec 3)
  | stateAdvance
  | slotReset
  | opcntSet
  | phase
  deriving DecidableEq, Repr

/-- A word of one of the three formats with a code: HOST's request word (R83), SEQ's bus word (R86), a descriptor image (R69). -/
inductive CodedWord where
  | req (w : ReqWord)
  | bus (w : BusWord)
  | image (w : Image)
  deriving DecidableEq, Repr

/-- What the model lets be placed on its bench (log 2): a bus word or a descriptor image, which are no requests of HOST (R98, R69). -/
inductive BenchWord where
  | bus (w : BusWord)
  | image (w : Image)
  deriving DecidableEq, Repr

/-- A bench word as a word with a code. -/
def BenchWord.coded : BenchWord → CodedWord
  | .bus w => .bus w
  | .image w => .image w

/-- Why a word names no operation. Every request word and every bus word names one (R84, R86). -/
inductive DecodeError where
  /-- An image that neither DESC64 row matches (R78). -/
  | notDescriptor
  deriving DecidableEq, Repr

end Sys2Proof
end

