-- ==== Sys2Proof/WellFormed.lean ====
section
/-! DEFINITION. Which operations have operands the spec admits. Operand ranges that a type already gives (a 3-bit slot, a bit
number in [0,7]) need no check; the LBA_R2 byte of a descriptor image does. -/

namespace Sys2Proof

/-- "`d[7:2] = lba2[5:0]`, `d[1:0] = 00`": the LBA_R2 byte of an image has bits 1:0 clear (R76, R88). -/
def lbaR2ByteOk (d : Byte) : Bool := d.extractLsb' 0 2 == 0#2

/-- Well-formedness of an operation. -/
def Instr.wellFormed : Instr → Bool
  | .descRwM1 _ _ d => lbaR2ByteOk d
  | .descRwM23 _ _ d => lbaR2ByteOk d
  | .issue | .checkBusy | .wait | .slotAddress | .waWrite _ _ | .waRead _ | .reservedOp0 | .reservedOp7 | .reservedOp8F _ => true
  | .regRd _ | .regWr _ _ => true
  | .stepI1 | .stepI2 | .stepI3 | .stepI4a | .stepI4b | .stepI4c | .stepI5 | .stepI6 | .stepI7 | .stepI8M1 | .stepI8M23
  | .stepC1a | .stepC1b | .stepC1c | .stepC1d | .stepW2 | .stepW3a | .stepW3b | .stepW4 | .stepI9 | .stepW5 | .stepW6
  | .stepW7 => true
  | .muxSel _ | .bitTest _ _ | .setBit _ _ | .combine _ _ | .trigSel _ | .issueBits _ | .lbaSplit _ | .build | .desc _ _
  | .busyFn _ _ | .classify _ | .waitCompletion | .slotAddr _ | .stateAdvance | .slotReset | .opcntSet | .phase => true

end Sys2Proof
end

