-- ==== Sys2Proof/Decode.lean ====
section
/-! DEFINITION. From a word to an operation and back: REQ16 (R83 to R85), BUS25 (R86), DESC64 (R69, R78). A word is
presented whole; there are no instruction bytes and no byte order (R66, R89, log 1). -/

namespace Sys2Proof

/-! ### Request words -/

/-- `op_sel` is bits 15:12 of a request word (R83). -/
def reqOpSel (w : ReqWord) : BitVec 4 := w.extractLsb' 12 4

/-- `field` is bits 11:8 (R83). -/
def reqField (w : ReqWord) : BitVec 4 := w.extractLsb' 8 4

/-- `data` is bits 7:0 (R83). -/
def reqData (w : ReqWord) : Byte := w.extractLsb' 0 8

/-- Put a request word together: `{op_sel, field, data}` (R83). -/
def mkReq (op field : BitVec 4) (data : Byte) : ReqWord := op ++ field ++ data

/-- The operation select codes (R84, R88): every one of the sixteen names a row. -/
def decodeReq (w : ReqWord) : Instr :=
  match reqOpSel w with
  | 0#4 => .reservedOp0
  | 1#4 => .issue
  | 2#4 => .checkBusy
  | 3#4 => .wait
  | 4#4 => .slotAddress
  | 5#4 => .waWrite (reqField w) (reqData w)
  | 6#4 => .waRead (reqField w)
  | 7#4 => .reservedOp7
  | op => .reservedOp8F (op.extractLsb' 0 3)

/-! ### Bus words -/

/-- `we` is bit 24 of a bus word (R86). -/
def busWe (w : BusWord) : Bool := w.getLsbD 24

/-- `addr` is bits 23:8 (R86). -/
def busAddr (w : BusWord) : Address := w.extractLsb' 8 16

/-- `wdata` is bits 7:0 (R86). -/
def busData (w : BusWord) : Byte := w.extractLsb' 0 8

/-- Put a bus word together: `{we, addr, wdata}` (R86). -/
def mkBus (we : Bool) (addr : Address) (wdata : Byte) : BusWord := BitVec.ofBool we ++ addr ++ wdata

/-- `we = 0` is REG_RD (`wdata` ignored), `we = 1` is REG_WR (R86). -/
def decodeBus (w : BusWord) : Instr :=
  if busWe w then .regWr (busAddr w) (busData w) else .regRd (busAddr w)

/-! ### Descriptor images -/

/-- The mask of both DESC64 rows (R69). -/
def imageMask : Image := 0xFFFFFFFF000003FF#64

/-- The match of row DESC_RW_M1 (R69). -/
def imageMatchM1 : Image := 0x3290011400000040#64

/-- The match of row DESC_RW_M23 (R69). -/
def imageMatchM23 : Image := 0x3290011400000080#64

/-- Image byte 4, register LBA_R0 (R74). -/
def imageB (w : Image) : Byte := w.extractLsb' 24 8

/-- Image byte 5, register LBA_R1 (R75). -/
def imageC (w : Image) : Byte := w.extractLsb' 16 8

/-- Image byte 6, register LBA_R2 (R76). -/
def imageD (w : Image) : Byte := w.extractLsb' 8 8

/-- Put an image together from its eight bytes in the order they are written (R69). -/
def mkImage (opc sts iss tag b c d trig : Byte) : Image := opc ++ sts ++ iss ++ tag ++ b ++ c ++ d ++ trig

/-- Classify an image by match and mask and extract the fields (R78). -/
def decodeImage (w : Image) : Except DecodeError Instr :=
  if w &&& imageMask = imageMatchM1 then .ok (.descRwM1 (imageB w) (imageC w) (imageD w))
  else if w &&& imageMask = imageMatchM23 then .ok (.descRwM23 (imageB w) (imageC w) (imageD w))
  else .error .notDescriptor

/-! ### Decode and encode -/

/-- The decoder, total on every word with a code. -/
def decode : CodedWord → Except DecodeError Instr
  | .req w => .ok (decodeReq w)
  | .bus w => .ok (decodeBus w)
  | .image w => decodeImage w

/-- The encoder: the word of an operation that has one, ignored bits written as 0 (R90). The sequencer's steps are "selected by
position, not decoded from bits" and internal functions have "no bit encoding" (opcode_table.json): they have no word. -/
def encode : Instr → Option CodedWord
  | .reservedOp0 => some (.req (mkReq 0 0 0))
  | .issue => some (.req (mkReq 1 0 0))
  | .checkBusy => some (.req (mkReq 2 0 0))
  | .wait => some (.req (mkReq 3 0 0))
  | .slotAddress => some (.req (mkReq 4 0 0))
  | .waWrite field data => some (.req (mkReq 5 field data))
  | .waRead field => some (.req (mkReq 6 field 0))
  | .reservedOp7 => some (.req (mkReq 7 0 0))
  | .reservedOp8F op => some (.req (mkReq (1#1 ++ op) 0 0))
  | .regRd addr => some (.bus (mkBus false addr 0))
  | .regWr addr v => some (.bus (mkBus true addr v))
  | .descRwM1 b c d => some (.image (mkImage 0x32 0x90 0x01 0x14 b c d 0x40))
  | .descRwM23 b c d => some (.image (mkImage 0x32 0x90 0x01 0x14 b c d 0x80))
  | .stepI1 | .stepI2 | .stepI3 | .stepI4a | .stepI4b | .stepI4c | .stepI5 | .stepI6 | .stepI7 | .stepI8M1 | .stepI8M23
  | .stepC1a | .stepC1b | .stepC1c | .stepC1d | .stepW2 | .stepW3a | .stepW3b | .stepW4 | .stepI9 | .stepW5 | .stepW6
  | .stepW7 => none
  | .muxSel _ | .bitTest _ _ | .setBit _ _ | .combine _ _ | .trigSel _ | .issueBits _ | .lbaSplit _ | .build | .desc _ _
  | .busyFn _ _ | .classify _ | .waitCompletion | .slotAddr _ | .stateAdvance | .slotReset | .opcntSet | .phase => none

/-- The request bits the decoder looks at, by `op_sel`: the rest are "ignored (any value)" (R84, R152, R153). -/
def reqKeepMask (w : ReqWord) : ReqWord :=
  match reqOpSel w with
  | 5#4 => 0xFFFF
  | 6#4 => 0xFF00
  | _ => 0xF000

/-! ### Words as the opcode table numbers them -/

/-- The word of `nbits` table bits: up to 16 a request word, up to 25 (rounded up to 32) a bus word, up to 64 an image; none
for a value the word has no room for (R83, R86, R69). -/
def codedWordOf (nbits w : Nat) : Option CodedWord :=
  if nbits = 0 then none
  else if nbits ≤ 16 then if w < 2 ^ 16 then some (.req (BitVec.ofNat 16 w)) else none
  else if nbits ≤ 32 then if w < 2 ^ 25 then some (.bus (BitVec.ofNat 25 w)) else none
  else if nbits ≤ 64 then if w < 2 ^ 64 then some (.image (BitVec.ofNat 64 w)) else none
  else none

/-- The operation the decoder reads from a word numbered as spec/opcode_table.json numbers it. -/
def decodeTableWord (nbits w : Nat) : Option Instr :=
  match codedWordOf nbits w with
  | some pw =>
    match decode pw with
    | .ok i => some i
    | .error _ => none
  | none => none

/-! ### The opcode table's rows of match and mask -/

/-- One row of the table: the words `w` with `w &&& mask = bits` (R84). -/
structure MaskRow (n : Nat) where
  mnemonic : String
  bits : BitVec n
  mask : BitVec n
  deriving DecidableEq, Repr

/-- Whether a word belongs to a row. -/
def rowMatches {n : Nat} (r : MaskRow n) (w : BitVec n) : Bool := w &&& r.mask == r.bits

/-- The REQ16 rows (R84, R88). -/
def reqRows : List (MaskRow 16) := [
  ⟨"RESERVED_OP_0", 0x0000, 0xF000⟩, ⟨"ISSUE", 0x1000, 0xF000⟩, ⟨"CHECK_BUSY", 0x2000, 0xF000⟩, ⟨"WAIT", 0x3000, 0xF000⟩,
  ⟨"SLOT_ADDRESS", 0x4000, 0xF000⟩, ⟨"WA_WRITE", 0x5000, 0xF000⟩, ⟨"WA_READ", 0x6000, 0xF000⟩,
  ⟨"RESERVED_OP_7", 0x7000, 0xF000⟩, ⟨"RESERVED_OP_8_F", 0x8000, 0x8000⟩]

/-- The BUS25 rows (R86). -/
def busRows : List (MaskRow 25) := [⟨"REG_RD", 0x0000000, 0x1000000⟩, ⟨"REG_WR", 0x1000000, 0x1000000⟩]

/-- The table's mnemonic of an operation that has a word; the empty string for the others. -/
def codedMnemonic : Instr → String
  | .reservedOp0 => "RESERVED_OP_0"
  | .issue => "ISSUE"
  | .checkBusy => "CHECK_BUSY"
  | .wait => "WAIT"
  | .slotAddress => "SLOT_ADDRESS"
  | .waWrite _ _ => "WA_WRITE"
  | .waRead _ => "WA_READ"
  | .reservedOp7 => "RESERVED_OP_7"
  | .reservedOp8F _ => "RESERVED_OP_8_F"
  | .regRd _ => "REG_RD"
  | .regWr _ _ => "REG_WR"
  | .descRwM1 _ _ _ => "DESC_RW_M1"
  | .descRwM23 _ _ _ => "DESC_RW_M23"
  | .stepI1 | .stepI2 | .stepI3 | .stepI4a | .stepI4b | .stepI4c | .stepI5 | .stepI6 | .stepI7 | .stepI8M1 | .stepI8M23
  | .stepC1a | .stepC1b | .stepC1c | .stepC1d | .stepW2 | .stepW3a | .stepW3b | .stepW4 | .stepI9 | .stepW5 | .stepW6
  | .stepW7 => ""
  | .muxSel _ | .bitTest _ _ | .setBit _ _ | .combine _ _ | .trigSel _ | .issueBits _ | .lbaSplit _ | .build | .desc _ _
  | .busyFn _ _ | .classify _ | .waitCompletion | .slotAddr _ | .stateAdvance | .slotReset | .opcntSet | .phase => ""

end Sys2Proof
end

