-- ==== Sys2Proof/Machine/State.lean ====
section
/-! DEFINITION. The state of the block (10_state.md): the Command Work Area, the slot address latch, the sequencer, the engine
registers as SEQ wrote them, what the outside sees, and the model's own input fields. Plain data. -/

namespace Sys2Proof.Machine

/-- The sequencer's position, the block's program counter: 23 values (R23). -/
inductive Pos where
  | idle
  | i1 | i2 | i3 | i4a | i4b | i4c | i5 | i6 | i7 | i8 | i9
  | c1a | c1b | c1c | c1d
  | w2 | w3a | w3b | w4 | w5 | w6 | w7
  deriving DecidableEq, Repr

/-- `cur_op`: which request the sequencer is performing (R24). -/
inductive CurOp where
  | none | issue | checkBusy | wait
  deriving DecidableEq, Repr

/-- The phase, the document's conceptual state machine (R27, R138). -/
inductive Phase where
  | idle | building | triggered | waiting | complete
  deriving DecidableEq, Repr

/-- The status taxonomy (R124). -/
inductive Taxonomy where
  | idle | busy | errorPending | unknown
  deriving DecidableEq, Repr

/-- The closed set of refusal reasons (R156). -/
inductive RefuseReason where
  | reservedOp | reservedField | unwrittenField | badMode
  deriving DecidableEq, Repr

/-- The tagged responses to HOST (R87). -/
inductive Response where
  | ok
  | okBusy (bz : Bool)
  | okAddr (a : Address)
  | okByte (v : Byte)
  | refused (why : RefuseReason)
  deriving DecidableEq, Repr

/-- One bus transaction of the event history (R98): `R(addr, value)` or `W(addr, value)`. -/
inductive BusEvent where
  | read (addr : Address) (v : Byte)
  | write (addr : Address) (v : Byte)
  deriving DecidableEq, Repr

/-- What the address multiplexer selects (R95). -/
inductive Selection where
  | reg (r : Reg)
  | window (slot : BitVec 3) (offset : BitVec 5)
  | nothing
  deriving DecidableEq, Repr

/-- The eleven fields of the Command Work Area (R13). `none` is the spec's own state "has no value (never written since reset)",
which admission tests (R21, R147; log 7). -/
structure WorkArea where
  slotIndex : BitVec 3
  opCounter : Option Byte
  cmdState : BitVec 3
  cmdStatus : Option Byte
  mode : Option Byte
  param0 : Option Byte
  param1 : Option Byte
  lba0 : Option Byte
  lba1 : Option Byte
  lba2 : Option Byte
  lba3 : Option Byte
  deriving DecidableEq, Repr

/-- The sequencer's temporaries (R25). At IDLE they hold what the model keeps there, which is no temporary of any operation (log 32). -/
structure Temps where
  t : Byte
  a1 : Byte
  b : Byte
  a2 : Byte
  a3 : Byte
  r : Byte
  p : Byte
  deriving DecidableEq, Repr

/-- The engine registers as SEQ last wrote them: the nine storage registers (R42) and BUSY_B as ENG saw it at that write (R94).
STATUS_A has no storage and BUSY_B is never read from here: every read of either is a draw (R43; log 11). -/
structure EngineRegs where
  control : Byte
  busyB : Byte
  trigger : Byte
  opcode : Byte
  cmdStatus : Byte
  issue : Byte
  tag : Byte
  lbaR0 : Byte
  lbaR1 : Byte
  lbaR2 : Byte
  deriving DecidableEq, Repr

/-- What an internal function of the block, or a bus read exposed by the model, delivered (log 16). -/
inductive FnResult where
  | nothing
  | byte (v : Byte)
  | bit (v : Bool)
  | addr (a : Address)
  | selection (sel : Selection)
  | lbaBytes (lba0 lba1 lba2 lba3 : Byte)
  | image (w : Image)
  /-- The classification of a descriptor image (R78): the mode class, the fields `b`, `c`, `d`, and whether the eight descriptor
  registers hold that image now (log 18). -/
  | descriptor (mode1 : Bool) (b c d : Byte) (held : Bool)
  | taxonomy (x : Taxonomy)
  | phase (x : Phase)
  /-- A function asked for what ISSUE refuses (R100, R146; log 17). -/
  | refused (why : RefuseReason)
  deriving DecidableEq, Repr

/-- The state of the machine. -/
structure State where
  /-- The implementation parameters (R7); no step writes them. -/
  cfg : Params
  /-- The Command Work Area (R13). -/
  wa : WorkArea
  /-- The slot address latch, bits 15:8 (R22). -/
  saHi : Byte
  /-- The slot address latch, bits 7:0 (R22). -/
  saLo : Byte
  /-- Whether the latch has a value: "once it has a value" (R143); reset leaves it without one (R46). -/
  saSet : Bool
  /-- The sequencer's position (R23). -/
  pos : Pos
  /-- The request being performed (R24). -/
  curOp : CurOp
  /-- The temporaries (R25). -/
  tmp : Temps
  /-- The classification observer's value (R124; log 25). -/
  taxonomy : Taxonomy
  /-- The engine registers as written (R42, R94). -/
  regs : EngineRegs
  /-- The event history, oldest first (R98). -/
  history : List BusEvent
  /-- The responses given to HOST, oldest first (R87, R144). -/
  responses : List Response
  /-- Model's own: the request words HOST has presented and the block has not yet taken, next first (R144; log 23). -/
  port : List ReqWord
  /-- Model's own, and none of HOST's: an access primitive or a descriptor image placed from outside the machine for SEQ to perform at
  IDLE (R60; log 2). Reset leaves it empty and no step fills it. -/
  bench : Option BenchWord
  /-- Model's own: the reset input is asserted (R173; log 21). -/
  resetIn : Bool
  /-- Model's own: the bytes of the coming draws, next first: the spec's ENV (R91; log 3), and of the draws that are no read of STATUS_A or BUSY_B
  too (log 36). -/
  env : List Byte
  /-- Model's own: how many free values have been taken (log 3). -/
  draws : Nat
  /-- Model's own: what the last internal function or exposed bus read delivered (log 16). -/
  result : FnResult
  deriving DecidableEq, Repr

/-- The faults: stops of the model where the spec gives no effect. All are safe: the model stops where no rule says how to go on. -/
inductive Fault where
  /-- Raised by STEP_I8_M1 and STEP_I8_M23, alone or inside BUILD, when the mode has no trigger value: "any other mode value is not
  specified by source" (R100), and ISSUE has refused it before (R146). Safe (log 15). -/
  | modeNotSpecified
  /-- Raised by STEP_C1d, alone or inside WAIT_COMPLETION, when `cur_op` is NONE, for which R121 gives no decision and R24 says it
  cannot be. Safe (log 15). -/
  | noOperation
  deriving DecidableEq, Repr

/-- The host interface's refusals: no meaning here. All are safe. They are not the block's own refusals (R156), which are responses. -/
inductive Refusal where
  /-- Raised by an arm of `exec` whose operation has no meaning yet: by none. Safe. -/
  | notModelled (mnemonic : String)
  /-- Raised by a sequencer step, BUILD or WAIT_COMPLETION performed away from its position: "Each step is performed when `pos` has the
  value named" (41 section 2). Safe (log 13). -/
  | notAtPosition
  /-- Raised by STEP_I8_M1 and STEP_I8_M23 at I8 when the mode selects the other row (R112). Safe (log 13). -/
  | notSelected
  /-- Raised by `step` for an image on the bench that neither DESC64 row matches (R78). Safe (log 2). -/
  | notDescriptor
  deriving DecidableEq, Repr

/-- What performing an operation answers. -/
abbrev Answer := Host.Outcome State Fault Refusal

/-- What the block does next: the answer of fetching (log 23). -/
inductive Fetched where
  /-- The reset input is asserted (R173). -/
  | reset
  /-- At IDLE with nothing presented: the block waits for a request (R23, R174). -/
  | waiting
  /-- A bench word that names no operation. -/
  | undecodable (e : DecodeError)
  /-- An operation, and the state it is performed in. -/
  | run (i : Instr) (s : State)
  deriving DecidableEq, Repr

/-- The work area after reset (R46, R175, R176): two drawn counters and nine fields without a value. -/
def WorkArea.afterReset (slot state : BitVec 3) : WorkArea where
  slotIndex := slot
  opCounter := none
  cmdState := state
  cmdStatus := none
  mode := none
  param0 := none
  param1 := none
  lba0 := none
  lba1 := none
  lba2 := none
  lba3 := none

/-- The temporaries after reset: the spec gives no value (R177), the model zero (log 9). -/
def Temps.afterReset : Temps := { t := 0, a1 := 0, b := 0, a2 := 0, a3 := 0, r := 0, p := 0 }

/-- The engine registers after power-on: the spec states no value (R46), the model zero (log 10). -/
def EngineRegs.afterPowerOn : EngineRegs where
  control := 0
  busyB := 0
  trigger := 0
  opcode := 0
  cmdStatus := 0
  issue := 0
  tag := 0
  lbaR0 := 0
  lbaR1 := 0
  lbaR2 := 0

/-- The machine right after reset (R46, R173 to R178): IDLE, no operation, an empty history, nothing presented. -/
def State.reset : State where
  cfg := Config.params
  wa := WorkArea.afterReset (Config.drawThree 0) (Config.drawThree 1)
  saHi := 0
  saLo := 0
  saSet := false
  pos := .idle
  curOp := .none
  tmp := Temps.afterReset
  taxonomy := .unknown
  regs := EngineRegs.afterPowerOn
  history := []
  responses := []
  port := []
  bench := none
  resetIn := false
  env := []
  draws := 2
  result := .nothing

end Sys2Proof.Machine
end

