-- ==== Sys2Proof/Machine/Operands.lean ====
section
/-! DEFINITION. The constants of the block (R6), how each byte it writes is assembled (R92), the slot address (R133), the window
decode (R59), and the work-area fields by their codes (R85). All values are unsigned and exact (R196). -/

namespace Sys2Proof.Machine

/-! ### Constants (R6) -/

/-- `OPC_RW`, "fixed value 0x32 for read/write" (R70). -/
def opcRw : Byte := 0x32

/-- `STS_RW` (R71). -/
def stsRw : Byte := 0x90

/-- `ISS_RW` (R72). -/
def issRw : Byte := 0x01

/-- `TAG_BASE` (R73). -/
def tagBase : Byte := 0x04

/-- `TAG_VALID`, the mask of TAG bit 4 (R36, R73). -/
def tagValid : Byte := 0x10

/-- `TRIG_M1` (R77). -/
def trigM1 : Byte := 0x40

/-- `TRIG_M23` (R77). -/
def trigM23 : Byte := 0x80

/-- `OPCNT_SENTINEL` (R113, R142). -/
def opcntSentinel : Byte := 5

/-- `SLOT_BASE` (R6, R40). -/
def slotBase : Address := 0xE442

/-- The last byte of the last slot window (R40). -/
def windowLast : Address := 0xE541

/-! ### Pure functions of the descriptor builder -/

/-- COMBINE: `combine(v, s) = v | ((s << 2) & 0xFC)` (R99). -/
def combine (v s : Byte) : Byte := v ||| ((s <<< 2) &&& 0xFC)

/-- TRIGSEL: 0x80 for mode 2 or 3, 0x40 for mode 1; for any other mode 0x40 under `MODE_OTHER = as_mode1` and no value under
`refuse` (R100). -/
def trigSel (mo : ModeOther) (m : Byte) : Option Byte :=
  if m = 2 ∨ m = 3 then some trigM23
  else if m = 1 then some trigM1
  else
    match mo with
    | .asMode1 => some trigM1
    | .refuse => none

/-- ISSUEBITS: `(p >> 6) & 0x03` (R101). -/
def issueBits (p : Byte) : Byte := (p >>> 6) &&& 0x03

/-- LBASPLIT, byte 0: bits 7:0 (R102). -/
def lbaByte0 (l : Lba) : Byte := l.extractLsb' 0 8

/-- LBASPLIT, byte 1: bits 15:8 (R102). -/
def lbaByte1 (l : Lba) : Byte := l.extractLsb' 8 8

/-- LBASPLIT, byte 2: bits 23:16 (R102). -/
def lbaByte2 (l : Lba) : Byte := l.extractLsb' 16 8

/-- LBASPLIT, byte 3: bits 31:24 (R102). -/
def lbaByte3 (l : Lba) : Byte := l.extractLsb' 24 8

/-- The image of a descriptor from the four LBA bytes and the trigger value (R69, R116). -/
def descImage (l0 l1 l2 l3 trig : Byte) : Image :=
  mkImage opcRw stsRw issRw (tagBase ||| tagValid) l1 (combine l0 l3) (combine 0 l2) trig

/-- DESC: the descriptor of an LBA and a mode, where the mode has a trigger value (R116). -/
def descOf (mo : ModeOther) (l : Lba) (m : Byte) : Option Image :=
  match trigSel mo m with
  | some trig => some (descImage (lbaByte0 l) (lbaByte1 l) (lbaByte2 l) (lbaByte3 l) trig)
  | none => none

/-! ### Slot addresses and windows -/

/-- SLOTADDR: `0xE442 + slot * 32` at 16 bits (R133). -/
def slotAddr (slot : BitVec 3) : Address := slotBase + (slot.setWidth 16 <<< 5)

/-- The high byte of an address, "bits 15:8" (R22). -/
def addrHi (a : Address) : Byte := a.extractLsb' 8 8

/-- The low byte of an address, "bits 7:0" (R22). -/
def addrLo (a : Address) : Byte := a.extractLsb' 0 8

/-- The latched address `{SA_HI, SA_LO}` (R135). -/
def latchAddr (hi lo : Byte) : Address := hi ++ lo

/-- The address of byte `k` of the latched window, "a 16-bit sum that carries from `SA_LO` into `SA_HI`" (R135). -/
def windowByteAddr (hi lo : Byte) (k : BitVec 5) : Address := latchAddr hi lo + k.setWidth 16

/-- Whether an address lies in the slot windows (R59). -/
def inWindows (a : Address) : Bool := slotBase ≤ a && a ≤ windowLast

/-- `slot = (a - 0xE442) >> 5`, 3 bits (R59). -/
def windowSlot (a : Address) : BitVec 3 := ((a - slotBase) >>> 5).setWidth 3

/-- `offset = (a - 0xE442) & 0x1F`, 5 bits (R59). -/
def windowOffset (a : Address) : BitVec 5 := (a - slotBase).setWidth 5

/-- MUX_SEL: the named registers first, then the windows, else nothing (R95). -/
def muxSel (m : AddressMap) (a : Address) : Selection :=
  if a = m.aStatusA then .reg .statusA
  else if a = m.aControl then .reg .control
  else if a = m.aBusyB then .reg .busyB
  else if a = m.aTrigger then .reg .trigger
  else if a = m.aOpcode then .reg .opcode
  else if a = m.aCmdStatus then .reg .cmdStatus
  else if a = m.aIssue then .reg .issue
  else if a = m.aTag then .reg .tag
  else if a = m.aLbaR0 then .reg .lbaR0
  else if a = m.aLbaR1 then .reg .lbaR1
  else if a = m.aLbaR2 then .reg .lbaR2
  else if inWindows a then .window (windowSlot a) (windowOffset a)
  else .nothing

/-! ### Work-area fields -/

/-- The work-area fields by name (R85). -/
inductive WaField where
  | slotIndex | opCounter | cmdState | cmdStatus | mode | param0 | param1 | lba0 | lba1 | lba2 | lba3
  deriving DecidableEq, Repr

/-- The field select codes 0 to 10; 11 to 15 are reserved (R85, R88). -/
def waFieldOf (code : BitVec 4) : Option WaField :=
  match code with
  | 0#4 => some .slotIndex
  | 1#4 => some .opCounter
  | 2#4 => some .cmdState
  | 3#4 => some .cmdStatus
  | 4#4 => some .mode
  | 5#4 => some .param0
  | 6#4 => some .param1
  | 7#4 => some .lba0
  | 8#4 => some .lba1
  | 9#4 => some .lba2
  | 10#4 => some .lba3
  | _ => none

/-- The field select code of a field (R85). -/
def waFieldCode : WaField → BitVec 4
  | .slotIndex => 0
  | .opCounter => 1
  | .cmdState => 2
  | .cmdStatus => 3
  | .mode => 4
  | .param0 => 5
  | .param1 => 6
  | .lba0 => 7
  | .lba1 => 8
  | .lba2 => 9
  | .lba3 => 10

/-- A field's value zero-extended to 8 bits, none where it has no value (R153, R21). -/
def waGet (w : WorkArea) : WaField → Option Byte
  | .slotIndex => some (w.slotIndex.setWidth 8)
  | .opCounter => w.opCounter
  | .cmdState => some (w.cmdState.setWidth 8)
  | .cmdStatus => w.cmdStatus
  | .mode => w.mode
  | .param0 => w.param0
  | .param1 => w.param1
  | .lba0 => w.lba0
  | .lba1 => w.lba1
  | .lba2 => w.lba2
  | .lba3 => w.lba3

/-- Write a field: `data[2:0]` for the two 3-bit fields, `data` for the others (R152, R85). -/
def waSet (w : WorkArea) (f : WaField) (data : Byte) : WorkArea :=
  match f with
  | .slotIndex => { w with slotIndex := data.setWidth 3 }
  | .opCounter => { w with opCounter := some data }
  | .cmdState => { w with cmdState := data.setWidth 3 }
  | .cmdStatus => { w with cmdStatus := some data }
  | .mode => { w with mode := some data }
  | .param0 => { w with param0 := some data }
  | .param1 => { w with param1 := some data }
  | .lba0 => { w with lba0 := some data }
  | .lba1 => { w with lba1 := some data }
  | .lba2 => { w with lba2 := some data }
  | .lba3 => { w with lba3 := some data }

/-- Whether the six fields ISSUE reads have a value (R145, R147). -/
def issueFieldsWritten (w : WorkArea) : Bool :=
  w.lba0.isSome && w.lba1.isSome && w.lba2.isSome && w.lba3.isSome && w.mode.isSome && w.cmdStatus.isSome

/-- Admission of the mode: in {1, 2, 3} under `MODE_OTHER = refuse`, any under `as_mode1` (R146). -/
def admittedMode (mo : ModeOther) (m : Byte) : Bool :=
  match mo with
  | .refuse => m == 1 || m == 2 || m == 3
  | .asMode1 => true

end Sys2Proof.Machine
end

