-- ==== Sys2Proof/Machine/Flags.lean ====
section
/-! DEFINITION. The block's condition codes: the four bits it tests (R44), the bit-test multiplexer (R96), the busy function (R118)
and the status taxonomy (R124). Nothing here is stored: "The block has no flag register of its own" (R44). -/

namespace Sys2Proof.Machine

/-- BITTEST: `(v >> i) & 1` (R96). -/
def bitTest (v : Byte) (i : Fin 8) : Bool := v.getLsbD i.val

/-- SETBIT's new value: `(x & ~(1 << i)) | (1 << i)` (R97). -/
def withBitSet (x : Byte) (i : Fin 8) : Byte := (x &&& ~~~(1#8 <<< i.val)) ||| (1#8 <<< i.val)

/-- BUSYFN: `a[1] | b[0] | a[2] | a[3]` (R118). -/
def busyFn (a b : Byte) : Bool := bitTest a 1 || bitTest b 0 || bitTest a 2 || bitTest a 3

/-- The check's outcome over its four samples: `a1[1] | b[0] | a2[2] | a3[3]` (R119, R121). -/
def busyOfSamples (a1 b a2 a3 : Byte) : Bool := bitTest a1 1 || bitTest b 0 || bitTest a2 2 || bitTest a3 3

/-- CLASSIFY: Idle iff not busy, ErrorPending iff `a[2]` or `a[3]`, Busy otherwise, Unknown before any sample (R124). -/
def classifyFn : Option (Byte × Byte) → Taxonomy
  | none => .unknown
  | some (a, b) =>
    if busyFn a b = false then .idle
    else if bitTest a 2 || bitTest a 3 then .errorPending
    else .busy

/-- The STATUS_A byte a check has observed: from each of its three samples the bit that sample tests (log 25). -/
def observedA (a1 a2 a3 : Byte) : Byte := (a1 &&& 0x02) ||| (a2 &&& 0x04) ||| (a3 &&& 0x08)

end Sys2Proof.Machine
end

