-- ==== Sys2Proof/Machine/Ops.lean ====
section
/-! DEFINITION. The shared operations every meaning is written over: moving the sequencer, drawing a free value, the bus (R93, R94),
reading a work-area field, answering and refusing a request (R144, R156), and reset (R173 to R179). The block has no exception to
enter or to return from (R156, R164, R165): a refusal is the one abnormal outcome, and it is one shared operation here. -/

namespace Sys2Proof.Machine

/-! ### What is seen of the sequencer -/

/-- `ready = 1` iff `pos = IDLE` (R26). -/
def State.ready (s : State) : Bool := s.pos == .idle

/-- The phase as a function of position and operation (R27). A waiting position with no operation cannot be reached (R24); there the
document's own phase for the position stands. -/
def phaseOf (pos : Pos) (op : CurOp) : Phase :=
  if op = .checkBusy then .idle
  else
    match pos with
    | .idle => .idle
    | .i1 | .i2 | .i3 | .i4a | .i4b | .i4c | .i5 | .i6 | .i7 | .i8 => .building
    | .i9 => .triggered
    | .c1a | .c1b | .c1c | .c1d | .w2 | .w3a | .w3b | .w4 | .w5 | .w6 => .waiting
    | .w7 => .complete

/-- The phase of a state (R27): not stored. -/
def State.phase (s : State) : Phase := phaseOf s.pos s.curOp

/-! ### Updates of one field -/

/-- `pos <- L` (R11). -/
def State.goto (s : State) (p : Pos) : State := { s with pos := p }

/-- `cur_op <- op` (R24). -/
def State.setOp (s : State) (op : CurOp) : State := { s with curOp := op }

/-- Write the work area. -/
def State.setWa (s : State) (w : WorkArea) : State := { s with wa := w }

/-- Write the temporaries. -/
def State.setTmp (s : State) (x : Temps) : State := { s with tmp := x }

/-- Write the engine registers' storage. -/
def State.setRegs (s : State) (x : EngineRegs) : State := { s with regs := x }

/-- Append one transaction to the event history (R98). -/
def State.log (s : State) (e : BusEvent) : State := { s with history := s.history ++ [e] }

/-- Give HOST one response (R87, R144). -/
def State.respond (s : State) (x : Response) : State := { s with responses := s.responses ++ [x] }

/-- Deliver an internal function's result (log 16). -/
def State.deliver (s : State) (x : FnResult) : State := { s with result := x }

/-- Latch a slot address (R22, R134). -/
def State.latch (s : State) (a : Address) : State := { s with saHi := addrHi a, saLo := addrLo a, saSet := true }

/-- Record what a check has observed (R124; log 25). -/
def State.observe (s : State) (x : Taxonomy) : State := { s with taxonomy := x }

/-! ### Free values -/

/-- The value the next `draw_8` has: the next byte of `env` where the environment gives one, else a free value (R43, R91; log 3). R91's ENV holds
the bytes of the reads of STATUS_A and BUSY_B. DESIGN CHOICE (log 36): every other `draw_8` takes its byte from the same list, in the order the draws
are made: TAG under `TAG_READBACK = draw`, TRIGGER where it reads as a draw, a window or unmapped address, a work-area field without a value. -/
def State.drawn (s : State) : Byte :=
  match s.env with
  | v :: _ => v
  | [] => Config.draw s.draws

/-- The state after that draw. -/
def State.afterDraw (s : State) : State :=
  match s.env with
  | _ :: rest => { s with env := rest }
  | [] => { s with draws := s.draws + 1 }

/-! ### The bus -/

/-- Whether a read of what is selected is a draw: STATUS_A and BUSY_B always, TAG under `TAG_READBACK = draw`, a window or an unmapped
address always (R93, R42, R43, R60, R40), and TRIGGER where it does not read back (U5; log 33). -/
def readIsDraw (cfg : Params) : Selection → Bool
  | .reg .statusA => true
  | .reg .busyB => true
  | .reg .tag => cfg.tagReadback == .draw
  | .reg .trigger => cfg.triggerReadback == .draw
  | .reg .control | .reg .opcode | .reg .cmdStatus | .reg .issue => false
  | .reg .lbaR0 | .reg .lbaR1 | .reg .lbaR2 => false
  | .window _ _ => true
  | .nothing => true

/-- The stored byte of a storage register (R42); zero where nothing is stored, which no read returns. -/
def storedByte (x : EngineRegs) : Selection → Byte
  | .reg .statusA => 0
  | .reg .control => x.control
  | .reg .busyB => x.busyB
  | .reg .trigger => x.trigger
  | .reg .opcode => x.opcode
  | .reg .cmdStatus => x.cmdStatus
  | .reg .issue => x.issue
  | .reg .tag => x.tag
  | .reg .lbaR0 => x.lbaR0
  | .reg .lbaR1 => x.lbaR1
  | .reg .lbaR2 => x.lbaR2
  | .window _ _ => 0
  | .nothing => 0

/-- Store a written byte: the nine storage registers and BUSY_B as ENG sees it; STATUS_A, a window and an unmapped address keep
nothing (R94). -/
def storeByte (x : EngineRegs) (sel : Selection) (v : Byte) : EngineRegs :=
  match sel with
  | .reg .statusA => x
  | .reg .control => { x with control := v }
  | .reg .busyB => { x with busyB := v }
  | .reg .trigger => { x with trigger := v }
  | .reg .opcode => { x with opcode := v }
  | .reg .cmdStatus => { x with cmdStatus := v }
  | .reg .issue => { x with issue := v }
  | .reg .tag => { x with tag := v }
  | .reg .lbaR0 => { x with lbaR0 := v }
  | .reg .lbaR1 => { x with lbaR1 := v }
  | .reg .lbaR2 => { x with lbaR2 := v }
  | .window _ _ => x
  | .nothing => x

/-- The byte a read of what is selected returns (R93; whichever register it is, a draw is the next of the one list, log 36). -/
def State.valueOf (s : State) (sel : Selection) : Byte :=
  if readIsDraw s.cfg sel then s.drawn else storedByte s.regs sel

/-- The state after reading what `addr` selects: one transaction in the history, and the draw taken if it was one (R93, R98). -/
def State.afterReadOf (s : State) (addr : Address) (sel : Selection) : State :=
  (if readIsDraw s.cfg sel then s.afterDraw else s).log (.read addr (s.valueOf sel))

/-- The state after writing `v` to what `addr` selects (R94, R98). -/
def State.afterWriteOf (s : State) (addr : Address) (sel : Selection) (v : Byte) : State :=
  (s.setRegs (storeByte s.regs sel v)).log (.write addr v)

/-- `MemRead(addr, 1)`: the byte returned (R93). -/
def State.memRead (s : State) (addr : Address) : Byte := s.valueOf (muxSel s.cfg.addrs addr)

/-- `MemRead(addr, 1)`: the state after it (R93). -/
def State.afterMemRead (s : State) (addr : Address) : State := s.afterReadOf addr (muxSel s.cfg.addrs addr)

/-- `MemWrite(addr, 1, v)` (R94). -/
def State.memWrite (s : State) (addr : Address) (v : Byte) : State := s.afterWriteOf addr (muxSel s.cfg.addrs addr) v

/-- `MemRead(A_x, 1)` at a named register: the byte returned (R93). Laws/Ops.lean proves it is `memRead` at that address. -/
def State.regRead (s : State) (r : Reg) : Byte := s.valueOf (.reg r)

/-- `MemRead(A_x, 1)` at a named register: the state after it (R93). -/
def State.afterRegRead (s : State) (r : Reg) : State := s.afterReadOf (s.cfg.addrs.addrOf r) (.reg r)

/-- `MemWrite(A_x, 1, v)` at a named register (R94). -/
def State.regWrite (s : State) (r : Reg) (v : Byte) : State := s.afterWriteOf (s.cfg.addrs.addrOf r) (.reg r) v

/-! ### Work-area fields read by a step -/

/-- The value a step reads from a work-area field: the field's, or a draw where it has none (R21: "a model that prefers may instead give
an unwritten field a `draw_8`"; admission keeps the case from arising, R147; log 14; the draw is the next of the one list, log 36). -/
def State.fieldValue (s : State) (f : Option Byte) : Byte :=
  match f with
  | some v => v
  | none => s.drawn

/-- The state after a step has read a work-area field. -/
def State.afterField (s : State) (f : Option Byte) : State :=
  match f with
  | some _ => s
  | none => s.afterDraw

/-! ### Answering -/

/-- The block's refusal: `refuse(reason)` "ends a request without any state change and reports `reason` to HOST" (R11, R156, R164). -/
def State.refuse (s : State) (why : RefuseReason) : State := s.respond (.refused why)

/-- A request is performed only while the block is ready; otherwise it "is not accepted and has no effect" (R144; log 27). -/
def whenReady (s : State) (k : State → Answer) : Answer :=
  if s.pos = .idle then k s else .next s

/-- A sequencer step "is performed when `pos` has the value named" (41 section 2); elsewhere it has no meaning (log 13). -/
def atPos (p : Pos) (s : State) (k : State → Answer) : Answer :=
  if s.pos = p then k s else .refused .notAtPosition

/-! ### Reset -/

/-- Reset of the block (R173 to R179): IDLE, no operation, two counters drawn, the nine other fields, the latch and the temporaries
without a value, the taxonomy Unknown; an operation in progress is abandoned without a response; no bus transaction, and the engine
registers stay as written. The input is taken (log 21). -/
def State.blockReset (s : State) : State :=
  { s with
    wa := WorkArea.afterReset (Config.drawThree s.draws) (Config.drawThree (s.draws + 1))
    saHi := 0
    saLo := 0
    saSet := false
    pos := .idle
    curOp := .none
    tmp := Temps.afterReset
    taxonomy := .unknown
    resetIn := false
    draws := s.draws + 2 }

end Sys2Proof.Machine
end

