-- ==== Sys2Proof/Machine/Tracker.lean ====
section
/-! DEFINITION. The slot and state tracker (43_slot_state.md): SLOTADDR, STATE_ADVANCE, SLOT_RESET, OPCNT_SET, PHASE. -/

namespace Sys2Proof.Machine

/-- STATE_ADVANCE: `WA.cmd_state <- (WA.cmd_state + 1) mod 8` (R136). -/
def advanceState (s : State) : State := s.setWa { s.wa with cmdState := s.wa.cmdState + 1 }

/-- SLOT_RESET: `WA.slot_index <- 0` (R137). -/
def resetSlot (s : State) : State := s.setWa { s.wa with slotIndex := 0 }

/-- OPCNT_SET: `WA.op_counter <- 5` (R142). -/
def setOpCounter (s : State) : State := s.setWa { s.wa with opCounter := some opcntSentinel }

/-- SLOTADDR as an operation (R133): pure. -/
def execSlotAddr (slot : BitVec 3) (s : State) : Answer := .next (s.deliver (.addr (slotAddr slot)))

/-- STATE_ADVANCE as an operation: the sum of R136. DESIGN CHOICE (log 34): R136 says "performed at `W5`" and nothing of elsewhere; performed alone
it takes effect at any position and leaves `pos`. At W5 it is `doW5` that `step` runs. -/
def execStateAdvance (s : State) : Answer := .next (advanceState s)

/-- SLOT_RESET as an operation: the write of R137. DESIGN CHOICE (log 34): R137 says "performed at `W6`" and nothing of elsewhere; performed alone it
takes effect at any position and leaves `pos`. At W6 it is `doW6` that `step` runs. -/
def execSlotReset (s : State) : Answer := .next (resetSlot s)

/-- OPCNT_SET as an operation: the write of R142. DESIGN CHOICE (log 34): R142 says "performed at `I9`" and nothing of elsewhere; performed alone it
takes effect at any position and leaves `pos`. At I9 it is `doI9` that `step` runs. -/
def execOpcntSet (s : State) : Answer := .next (setOpCounter s)

/-- PHASE as an operation (R138): the phase of the state is delivered; nothing else changes. -/
def execPhase (s : State) : Answer := .next (s.deliver (.phase s.phase))

end Sys2Proof.Machine
end

