-- ==== Sys2Proof/Machine/Builder.lean ====
section
/-! DEFINITION. The descriptor builder (41_descriptor_builder.md): its pure functions, one meaning per step I1 to I9, the sequence
BUILD, and the descriptor images. What a step does at its position is a function `do…`; its meaning performs it there only. -/

namespace Sys2Proof.Machine

/-! ### Pure functions -/

/-- COMBINE (R99): pure. -/
def execCombine (v x : Byte) (s : State) : Answer :=
  .next (s.deliver (.byte (combine v x)))

/-- TRIGSEL (R100): pure; a mode it has no value for is reported as ISSUE reports it (R146; log 17). -/
def execTrigSel (m : Byte) (s : State) : Answer :=
  .next (s.deliver (match trigSel s.cfg.modeOther m with
    | some v => .byte v
    | none => .refused .badMode))

/-- ISSUEBITS (R101): pure, used by no operation. -/
def execIssueBits (p : Byte) (s : State) : Answer :=
  .next (s.deliver (.byte (issueBits p)))

/-- LBASPLIT (R102): pure. -/
def execLbaSplit (l : Lba) (s : State) : Answer :=
  .next (s.deliver (.lbaBytes (lbaByte0 l) (lbaByte1 l) (lbaByte2 l) (lbaByte3 l)))

/-- DESC (R116): pure; a mode without a trigger value is reported as ISSUE reports it (R146; log 17). -/
def execDesc (l : Lba) (m : Byte) (s : State) : Answer :=
  .next (s.deliver (match descOf s.cfg.modeOther l m with
    | some w => .image w
    | none => .refused .badMode))

/-- The image the eight descriptor registers hold, "side by side" (R69). -/
def heldImage (x : EngineRegs) : Image :=
  mkImage x.opcode x.cmdStatus x.issue x.tag x.lbaR0 x.lbaR1 x.lbaR2 x.trigger

/-- DESC_RW_M1 (R69, R78, R116): an image of the final register contents for mode 1, classified and taken apart; whether the registers
hold it now is reported, and nothing is written: it is "not a word on any bus" (log 18). -/
def execDescRwM1 (b c d : Byte) (s : State) : Answer :=
  .next (s.deliver (.descriptor true b c d
    (heldImage s.regs == mkImage opcRw stsRw issRw (tagBase ||| tagValid) b c d trigM1)))

/-- DESC_RW_M23 (R69, R78, R116): the same for modes 2 and 3 (log 18). -/
def execDescRwM23 (b c d : Byte) (s : State) : Answer :=
  .next (s.deliver (.descriptor false b c d
    (heldImage s.regs == mkImage opcRw stsRw issRw (tagBase ||| tagValid) b c d trigM23)))

/-! ### The steps of build_and_submit -/

/-- I1: `MemWrite(A_OPCODE, 1, 0x32); pos <- I2` (R103). -/
def doI1 (s : State) : State := (s.regWrite .opcode opcRw).goto .i2

/-- I2: `MemWrite(A_CMDSTATUS, 1, 0x90); pos <- I3` (R104). -/
def doI2 (s : State) : State := (s.regWrite .cmdStatus stsRw).goto .i3

/-- I3: `MemWrite(A_ISSUE, 1, 0x01); pos <- I4a` (R105). -/
def doI3 (s : State) : State := (s.regWrite .issue issRw).goto .i4a

/-- I4a: `MemWrite(A_TAG, 1, 0x04); pos <- I4b` (R106). -/
def doI4a (s : State) : State := (s.regWrite .tag tagBase).goto .i4b

/-- I4b: `t <- MemRead(A_TAG, 1); pos <- I4c` (R107). -/
def doI4b (s : State) : State :=
  ((s.afterRegRead .tag).setTmp { s.tmp with t := s.regRead .tag }).goto .i4c

/-- I4c: `MemWrite(A_TAG, 1, t | 0x10); pos <- I5` (R108). -/
def doI4c (s : State) : State := (s.regWrite .tag (s.tmp.t ||| tagValid)).goto .i5

/-- I5: `MemWrite(A_LBA_R0, 1, WA.lba1); pos <- I6` (R109). -/
def doI5 (s : State) : State :=
  ((s.afterField s.wa.lba1).regWrite .lbaR0 (s.fieldValue s.wa.lba1)).goto .i6

/-- I6: `MemWrite(A_LBA_R1, 1, combine(WA.lba0, WA.lba3)); pos <- I7` (R110). -/
def doI6 (s : State) : State :=
  (((s.afterField s.wa.lba0).afterField s.wa.lba3).regWrite .lbaR1
    (combine (s.fieldValue s.wa.lba0) ((s.afterField s.wa.lba0).fieldValue s.wa.lba3))).goto .i7

/-- I7: `MemWrite(A_LBA_R2, 1, combine(0, WA.lba2)); pos <- I8` (R111). -/
def doI7 (s : State) : State :=
  ((s.afterField s.wa.lba2).regWrite .lbaR2 (combine 0 (s.fieldValue s.wa.lba2))).goto .i8

/-- The trigger value of the work area's mode, where it has one (R112, R100). -/
def State.trigger (s : State) : Option Byte :=
  match s.wa.mode with
  | some m => trigSel s.cfg.modeOther m
  | none => none

/-- I8: `MemWrite(A_TRIGGER, 1, trigsel(WA.mode)); pos <- I9` (R112). -/
def doI8 (v : Byte) (s : State) : State := (s.regWrite .trigger v).goto .i9

/-- I9: `WA.op_counter <- 5` (R113), then `pos <- C1a` (R114). -/
def doI9 (s : State) : State := (setOpCounter s).goto .c1a

/-- STEP_I1 (R103). -/
def execStepI1 (s : State) : Answer := atPos .i1 s fun s => .next (doI1 s)

/-- STEP_I2 (R104). -/
def execStepI2 (s : State) : Answer := atPos .i2 s fun s => .next (doI2 s)

/-- STEP_I3 (R105). -/
def execStepI3 (s : State) : Answer := atPos .i3 s fun s => .next (doI3 s)

/-- STEP_I4a (R106). -/
def execStepI4a (s : State) : Answer := atPos .i4a s fun s => .next (doI4a s)

/-- STEP_I4b (R107). -/
def execStepI4b (s : State) : Answer := atPos .i4b s fun s => .next (doI4b s)

/-- STEP_I4c (R108). -/
def execStepI4c (s : State) : Answer := atPos .i4c s fun s => .next (doI4c s)

/-- STEP_I5 (R109). -/
def execStepI5 (s : State) : Answer := atPos .i5 s fun s => .next (doI5 s)

/-- STEP_I6 (R110). -/
def execStepI6 (s : State) : Answer := atPos .i6 s fun s => .next (doI6 s)

/-- STEP_I7 (R111). -/
def execStepI7 (s : State) : Answer := atPos .i7 s fun s => .next (doI7 s)

/-- I8 for the row whose trigger value is `v`: performed where the mode selects that value (R112; log 13, log 15). -/
def stepI8With (v : Byte) (s : State) : Answer :=
  match s.trigger with
  | some x => if x = v then .next (doI8 v s) else .refused .notSelected
  | none => .fault .modeNotSpecified

/-- STEP_I8_M1: "W(TRIGGER, 0x40) when WA.mode = 1" (R112). -/
def execStepI8M1 (s : State) : Answer := atPos .i8 s (stepI8With trigM1)

/-- STEP_I8_M23: "W(TRIGGER, 0x80) when WA.mode is 2 or 3" (R112). -/
def execStepI8M23 (s : State) : Answer := atPos .i8 s (stepI8With trigM23)

/-- STEP_I9 (R113, R114). -/
def execStepI9 (s : State) : Answer := atPos .i9 s fun s => .next (doI9 s)

/-- I1 to I7 in their order (R115). -/
def doI1toI7 (s : State) : State := doI7 (doI6 (doI5 (doI4c (doI4b (doI4a (doI3 (doI2 (doI1 s))))))))

/-- BUILD (R115): "the steps I1..I9 as one sequence", from I1 to the entry of the wait (log 20). -/
def execBuild (s : State) : Answer :=
  atPos .i1 s fun s =>
    match s.trigger with
    | some v => .next (doI9 (doI8 v (doI1toI7 s)))
    | none => .fault .modeNotSpecified

end Sys2Proof.Machine
end

