-- ==== Sys2Proof/Machine/Monitor.lean ====
section
/-! DEFINITION. The busy and completion monitor (42_busy_completion.md): BUSYFN, CLASSIFY, one meaning per step C1a to W7, and the
sequence WAIT_COMPLETION. -/

namespace Sys2Proof.Machine

/-- BUSYFN (R118): pure. -/
def execBusyFn (a b : Byte) (s : State) : Answer := .next (s.deliver (.bit (busyFn a b)))

/-- CLASSIFY (R124): an observer, changing nothing but its result. -/
def execClassify (sample : Option (Byte × Byte)) (s : State) : Answer :=
  .next (s.deliver (.taxonomy (classifyFn sample)))

/-! ### The four reads of one check -/

/-- C1a: `a1 <- MemRead(A_STATUS_A, 1); pos <- C1b` (R120). -/
def doC1a (s : State) : State :=
  ((s.afterRegRead .statusA).setTmp { s.tmp with a1 := s.regRead .statusA }).goto .c1b

/-- C1b: `b <- MemRead(A_BUSY_B, 1); pos <- C1c` (R120). -/
def doC1b (s : State) : State :=
  ((s.afterRegRead .busyB).setTmp { s.tmp with b := s.regRead .busyB }).goto .c1c

/-- C1c: `a2 <- MemRead(A_STATUS_A, 1); pos <- C1d` (R120). -/
def doC1c (s : State) : State :=
  ((s.afterRegRead .statusA).setTmp { s.tmp with a2 := s.regRead .statusA }).goto .c1d

/-- C1d's read: `a3 <- MemRead(A_STATUS_A, 1)` (R120), and what the observer has now seen (R124; log 25). -/
def doC1dRead (s : State) : State :=
  ((s.afterRegRead .statusA).setTmp { s.tmp with a3 := s.regRead .statusA }).observe
    (classifyFn (some (observedA s.tmp.a1 s.tmp.a2 (s.regRead .statusA), s.tmp.b)))

/-- `bz = a1[1] | b[0] | a2[2] | a3[3]` over the temporaries (R121). -/
def sampledBusy (x : Temps) : Bool := busyOfSamples x.a1 x.b x.a2 x.a3

/-- The decision at the end of C1d (R121). Where it ends a CHECK_BUSY the temporaries, none of which survives the operation (R25), stand as
last written, which is the model's choice (log 32). -/
def decideC1d (s : State) : Answer :=
  match s.curOp with
  | .checkBusy => .next (((s.respond (.okBusy (sampledBusy s.tmp))).setOp .none).goto .idle)
  | .issue | .wait => .next (s.goto (if sampledBusy s.tmp then .c1a else .w2))
  | .none => .fault .noOperation

/-! ### The steps of wait_completion -/

/-- W2: `MemWrite(A_CONTROL, 1, WA.cmd_status); pos <- W3a` (R125). -/
def doW2 (s : State) : State :=
  ((s.afterField s.wa.cmdStatus).regWrite .control (s.fieldValue s.wa.cmdStatus)).goto .w3a

/-- W3a: `r <- MemRead(A_BUSY_B, 1); pos <- W3b` (R126). -/
def doW3a (s : State) : State :=
  ((s.afterRegRead .busyB).setTmp { s.tmp with r := s.regRead .busyB }).goto .w3b

/-- W3b: `MemWrite(A_BUSY_B, 1, (r & 0xFE) | 0x01); pos <- W4` (R127). -/
def doW3b (s : State) : State := (s.regWrite .busyB ((s.tmp.r &&& 0xFE) ||| 0x01)).goto .w4

/-- W4: `p <- MemRead(A_BUSY_B, 1); if p[0] = 1 then pos <- W4 else pos <- W5` (R128). -/
def doW4 (s : State) : State :=
  ((s.afterRegRead .busyB).setTmp { s.tmp with p := s.regRead .busyB }).goto
    (if bitTest (s.regRead .busyB) 0 then .w4 else .w5)

/-- W5: STATE_ADVANCE; `pos <- W6` (R129). -/
def doW5 (s : State) : State := (advanceState s).goto .w6

/-- W6: SLOT_RESET; `pos <- W7` (R130). -/
def doW6 (s : State) : State := (resetSlot s).goto .w7

/-- W7: respond `ok`; `cur_op <- NONE`; `pos <- IDLE` (R131). The temporaries, none of which survives the operation (R25), stand as last
written, which is the model's choice (log 32). -/
def doW7 (s : State) : State := ((s.respond .ok).setOp .none).goto .idle

/-- STEP_C1a (R120). -/
def execStepC1a (s : State) : Answer := atPos .c1a s fun s => .next (doC1a s)

/-- STEP_C1b (R120). -/
def execStepC1b (s : State) : Answer := atPos .c1b s fun s => .next (doC1b s)

/-- STEP_C1c (R120). -/
def execStepC1c (s : State) : Answer := atPos .c1c s fun s => .next (doC1c s)

/-- STEP_C1d (R120, R121). -/
def execStepC1d (s : State) : Answer := atPos .c1d s fun s => decideC1d (doC1dRead s)

/-- STEP_W2 (R125). -/
def execStepW2 (s : State) : Answer := atPos .w2 s fun s => .next (doW2 s)

/-- STEP_W3a (R126). -/
def execStepW3a (s : State) : Answer := atPos .w3a s fun s => .next (doW3a s)

/-- STEP_W3b (R127). -/
def execStepW3b (s : State) : Answer := atPos .w3b s fun s => .next (doW3b s)

/-- STEP_W4 (R128). -/
def execStepW4 (s : State) : Answer := atPos .w4 s fun s => .next (doW4 s)

/-- STEP_W5 (R129). -/
def execStepW5 (s : State) : Answer := atPos .w5 s fun s => .next (doW5 s)

/-- STEP_W6 (R130). -/
def execStepW6 (s : State) : Answer := atPos .w6 s fun s => .next (doW6 s)

/-- STEP_W7 (R131). -/
def execStepW7 (s : State) : Answer := atPos .w7 s fun s => .next (doW7 s)

/-! ### The sequence as a whole -/

/-- The step of the wait at the state's position (R132); elsewhere there is none. -/
def waitStep (s : State) : Answer :=
  match s.pos with
  | .c1a => execStepC1a s
  | .c1b => execStepC1b s
  | .c1c => execStepC1c s
  | .c1d => execStepC1d s
  | .w2 => execStepW2 s
  | .w3a => execStepW3a s
  | .w3b => execStepW3b s
  | .w4 => execStepW4 s
  | .w5 => execStepW5 s
  | .w6 => execStepW6 s
  | .w7 => execStepW7 s
  | .idle | .i1 | .i2 | .i3 | .i4a | .i4b | .i4c | .i5 | .i6 | .i7 | .i8 | .i9 => .refused .notAtPosition

/-- Whether a step of the wait that went from position `p` to `q` ends what WAIT_COMPLETION performs at a time: the sequence is over,
or a poll has turned back on itself (R132, R139). -/
def waitTurns (p q : Pos) : Bool := q == .idle || (p == .c1d && q == .c1a) || (p == .w4 && q == .w4)

/-- At most `n` steps of the wait, up to its end or to the first poll that turns back. -/
def runWait : Nat → State → Answer
  | 0, s => .next s
  | n + 1, s =>
    match waitStep s with
    | .next t => if waitTurns s.pos t.pos then .next t else runWait n t
    | .fault x => .fault x
    | .refused x => .refused x

/-- WAIT_COMPLETION (R132): "the steps C1a..W7 as one sequence", from the state's position in it, performed up to W7 or to the first
poll that turns back, after which performing it again goes on with the poll: both polls are unbounded (R160; log 20). Eleven steps are
the longest such stretch. -/
def execWaitCompletion (s : State) : Answer :=
  match s.curOp with
  | .issue | .wait => runWait 11 s
  | .none | .checkBusy => .refused .notAtPosition

end Sys2Proof.Machine
end

