-- ==== Sys2Proof/Machine/RegisterFile.lean ====
section
/-! DEFINITION. The register file port and multiplexer (40_register_file.md): REG_RD, REG_WR, MUX_SEL, BITTEST, SETBIT. -/

namespace Sys2Proof.Machine

/-- REG_RD (R93): one read transaction, never an error; the byte is delivered as the result (log 16). -/
def execRegRd (addr : Address) (s : State) : Answer :=
  .next ((s.afterMemRead addr).deliver (.byte (s.memRead addr)))

/-- REG_WR (R94): one write transaction, never an error. -/
def execRegWr (addr : Address) (v : Byte) (s : State) : Answer :=
  .next (s.memWrite addr v)

/-- MUX_SEL (R95): pure. -/
def execMuxSel (addr : Address) (s : State) : Answer :=
  .next (s.deliver (.selection (muxSel s.cfg.addrs addr)))

/-- BITTEST (R96): pure. -/
def execBitTest (v : Byte) (i : Fin 8) (s : State) : Answer :=
  .next (s.deliver (.bit (bitTest v i)))

/-- SETBIT (R97): a read transaction, then a write transaction of the byte read with bit `i` set (log 19). -/
def execSetBit (addr : Address) (i : Fin 8) (s : State) : Answer :=
  .next ((s.afterMemRead addr).memWrite addr (withBitSet (s.memRead addr) i))

end Sys2Proof.Machine
end

