-- ==== Sys2Proof/Machine/Requests.lean ====
section
/-! DEFINITION. The request port's operations (44_command_issue.md): what the block does when it accepts each request, and its refusals. -/

namespace Sys2Proof.Machine

/-- ISSUE at acceptance (R145): unwritten fields first, then the mode (R147, C13), else `cur_op <- ISSUE; pos <- I1`. -/
def acceptIssue (s : State) : Answer :=
  if issueFieldsWritten s.wa = false then .next (s.refuse .unwrittenField)
  else
    match s.wa.mode with
    | none => .next (s.refuse .unwrittenField)
    | some m =>
      if admittedMode s.cfg.modeOther m then .next ((s.setOp .issue).goto .i1)
      else .next (s.refuse .badMode)

/-- ISSUE (R145). -/
def execIssue (s : State) : Answer := whenReady s acceptIssue

/-- CHECK_BUSY (R149): never refused; `cur_op <- CHECK_BUSY; pos <- C1a`. -/
def execCheckBusy (s : State) : Answer := whenReady s fun s => .next ((s.setOp .checkBusy).goto .c1a)

/-- WAIT at acceptance (R150): refused if `WA.cmd_status` has no value, else `cur_op <- WAIT; pos <- C1a`. -/
def acceptWait (s : State) : Answer :=
  match s.wa.cmdStatus with
  | none => .next (s.refuse .unwrittenField)
  | some _ => .next ((s.setOp .wait).goto .c1a)

/-- WAIT (R150). -/
def execWait (s : State) : Answer := whenReady s acceptWait

/-- SLOT_ADDRESS (R134, R151): latch and answer `slotaddr(WA.slot_index)`; never refused. -/
def execSlotAddress (s : State) : Answer :=
  whenReady s fun s => .next ((s.latch (slotAddr s.wa.slotIndex)).respond (.okAddr (slotAddr s.wa.slotIndex)))

/-- WA_WRITE (R152). -/
def execWaWrite (field : BitVec 4) (data : Byte) (s : State) : Answer :=
  whenReady s fun s =>
    match waFieldOf field with
    | none => .next (s.refuse .reservedField)
    | some f => .next ((s.setWa (waSet s.wa f data)).respond .ok)

/-- WA_READ (R153). -/
def execWaRead (field : BitVec 4) (s : State) : Answer :=
  whenReady s fun s =>
    match waFieldOf field with
    | none => .next (s.refuse .reservedField)
    | some f =>
      match waGet s.wa f with
      | none => .next (s.refuse .unwrittenField)
      | some v => .next (s.respond (.okByte v))

/-- A request with a reserved `op_sel` (R154). -/
def reservedRequest (s : State) : Answer := whenReady s fun s => .next (s.refuse .reservedOp)

/-- RESERVED_OP_0 (R154). -/
def execReservedOp0 (s : State) : Answer := reservedRequest s

/-- RESERVED_OP_7 (R154). -/
def execReservedOp7 (s : State) : Answer := reservedRequest s

/-- RESERVED_OP_8_F (R154), whichever of the eight codes it is. -/
def execReservedOp8F (_op : BitVec 3) (s : State) : Answer := reservedRequest s

end Sys2Proof.Machine
end

