-- ==== Sys2Proof/Machine/Sequencer.lean ====
section
/-! DEFINITION. What the block does next (R23, R144): the operation of its position, or at IDLE the next request; the bus word
of each position (R86 and the BUS25_AT_POS rows); and how a table word is presented. -/

namespace Sys2Proof.Machine

/-- The step of each position (R23). At I8 the row is chosen by the mode: 2 or 3 selects STEP_I8_M23, any other STEP_I8_M1 (R112). -/
def stepAt (p : Pos) (mode : Option Byte) : Option Instr :=
  match p with
  | .idle => none
  | .i1 => some .stepI1
  | .i2 => some .stepI2
  | .i3 => some .stepI3
  | .i4a => some .stepI4a
  | .i4b => some .stepI4b
  | .i4c => some .stepI4c
  | .i5 => some .stepI5
  | .i6 => some .stepI6
  | .i7 => some .stepI7
  | .i8 => if mode = some 2 ∨ mode = some 3 then some .stepI8M23 else some .stepI8M1
  | .i9 => some .stepI9
  | .c1a => some .stepC1a
  | .c1b => some .stepC1b
  | .c1c => some .stepC1c
  | .c1d => some .stepC1d
  | .w2 => some .stepW2
  | .w3a => some .stepW3a
  | .w3b => some .stepW3b
  | .w4 => some .stepW4
  | .w5 => some .stepW5
  | .w6 => some .stepW6
  | .w7 => some .stepW7

/-- At IDLE: HOST's next request word is taken from the port, or there is none and the block waits (R144, R174). A request word only: HOST
has no path to the register space (R98). -/
def fetchPort (s : State) : Fetched :=
  match s.port with
  | [] => .waiting
  | w :: rest => .run (decodeReq w) { s with port := rest }

/-- At IDLE: what stands on the bench is taken first (log 2), else HOST's next request. -/
def fetchIdle (s : State) : Fetched :=
  match s.bench with
  | none => fetchPort s
  | some w =>
    match decode w.coded with
    | .ok i => .run i { s with bench := none }
    | .error e => .undecodable e

/-- What the block does next: reset if its input is asserted (R173), else the step of its position, else at IDLE what is presented. -/
def fetch (s : State) : Fetched :=
  if s.resetIn then .reset
  else
    match stepAt s.pos s.wa.mode with
    | some i => .run i s
    | none => fetchIdle s

/-- The bus word SEQ drives at its position, where the position has a transaction: the BUS25_AT_POS rows. The ignored `wdata` of a read
is written as 0 (R86, R90). -/
def busWordAt (s : State) : Option BusWord :=
  match s.pos with
  | .i1 => some (mkBus true s.cfg.addrs.aOpcode opcRw)
  | .i2 => some (mkBus true s.cfg.addrs.aCmdStatus stsRw)
  | .i3 => some (mkBus true s.cfg.addrs.aIssue issRw)
  | .i4a => some (mkBus true s.cfg.addrs.aTag tagBase)
  | .i4b => some (mkBus false s.cfg.addrs.aTag 0)
  | .i4c => some (mkBus true s.cfg.addrs.aTag (s.tmp.t ||| tagValid))
  | .i5 => some (mkBus true s.cfg.addrs.aLbaR0 (s.fieldValue s.wa.lba1))
  | .i6 => some (mkBus true s.cfg.addrs.aLbaR1
      (combine (s.fieldValue s.wa.lba0) ((s.afterField s.wa.lba0).fieldValue s.wa.lba3)))
  | .i7 => some (mkBus true s.cfg.addrs.aLbaR2 (combine 0 (s.fieldValue s.wa.lba2)))
  | .i8 =>
    match s.trigger with
    | some v => some (mkBus true s.cfg.addrs.aTrigger v)
    | none => none
  | .c1a | .c1c | .c1d => some (mkBus false s.cfg.addrs.aStatusA 0)
  | .c1b | .w3a | .w4 => some (mkBus false s.cfg.addrs.aBusyB 0)
  | .w2 => some (mkBus true s.cfg.addrs.aControl (s.fieldValue s.wa.cmdStatus))
  | .w3b => some (mkBus true s.cfg.addrs.aBusyB ((s.tmp.r &&& 0xFE) ||| 0x01))
  | .idle | .i9 | .w5 | .w6 | .w7 => none

/-- The bus word of a recorded transaction (R86, R98). -/
def eventWord : BusEvent → BusWord
  | .read addr _ => mkBus false addr 0
  | .write addr v => mkBus true addr v

/-- Ready for a word: at IDLE, no operation in progress, reset not asserted, the bench empty. -/
def State.standReady (s : State) : State := { s with pos := .idle, curOp := .none, resetIn := false, bench := none }

/-- Present one word as the next thing the block does: a request word first at HOST's port (log 23), a bus word or an image on the bench
(log 2). -/
def presentWord (s : State) : CodedWord → State
  | .req w => { s.standReady with port := w :: s.port }
  | .bus w => { s.standReady with bench := some (.bus w) }
  | .image w => { s.standReady with bench := some (.image w) }

end Sys2Proof.Machine
end

