-- ==== Sys2Proof/Machine/Dispatch.lean ====
section
/-! DEFINITION. One arm for each operation of the opcode table. -/

namespace Sys2Proof.Machine

/-- What performing an operation does. -/
def exec (i : Instr) (s : State) : Host.Outcome State Fault Refusal :=
  match i with
  | .issue => Sys2Proof.Machine.execIssue s
  | .checkBusy => Sys2Proof.Machine.execCheckBusy s
  | .wait => Sys2Proof.Machine.execWait s
  | .slotAddress => Sys2Proof.Machine.execSlotAddress s
  | .waWrite field data => Sys2Proof.Machine.execWaWrite field data s
  | .waRead field => Sys2Proof.Machine.execWaRead field s
  | .reservedOp0 => Sys2Proof.Machine.execReservedOp0 s
  | .reservedOp7 => Sys2Proof.Machine.execReservedOp7 s
  | .reservedOp8F op => Sys2Proof.Machine.execReservedOp8F op s
  | .regRd addr => Sys2Proof.Machine.execRegRd addr s
  | .regWr addr v => Sys2Proof.Machine.execRegWr addr v s
  | .descRwM1 b c d => Sys2Proof.Machine.execDescRwM1 b c d s
  | .descRwM23 b c d => Sys2Proof.Machine.execDescRwM23 b c d s
  | .stepI1 => Sys2Proof.Machine.execStepI1 s
  | .stepI2 => Sys2Proof.Machine.execStepI2 s
  | .stepI3 => Sys2Proof.Machine.execStepI3 s
  | .stepI4a => Sys2Proof.Machine.execStepI4a s
  | .stepI4b => Sys2Proof.Machine.execStepI4b s
  | .stepI4c => Sys2Proof.Machine.execStepI4c s
  | .stepI5 => Sys2Proof.Machine.execStepI5 s
  | .stepI6 => Sys2Proof.Machine.execStepI6 s
  | .stepI7 => Sys2Proof.Machine.execStepI7 s
  | .stepI8M1 => Sys2Proof.Machine.execStepI8M1 s
  | .stepI8M23 => Sys2Proof.Machine.execStepI8M23 s
  | .stepC1a => Sys2Proof.Machine.execStepC1a s
  | .stepC1b => Sys2Proof.Machine.execStepC1b s
  | .stepC1c => Sys2Proof.Machine.execStepC1c s
  | .stepC1d => Sys2Proof.Machine.execStepC1d s
  | .stepW2 => Sys2Proof.Machine.execStepW2 s
  | .stepW3a => Sys2Proof.Machine.execStepW3a s
  | .stepW3b => Sys2Proof.Machine.execStepW3b s
  | .stepW4 => Sys2Proof.Machine.execStepW4 s
  | .stepI9 => Sys2Proof.Machine.execStepI9 s
  | .stepW5 => Sys2Proof.Machine.execStepW5 s
  | .stepW6 => Sys2Proof.Machine.execStepW6 s
  | .stepW7 => Sys2Proof.Machine.execStepW7 s
  | .muxSel addr => Sys2Proof.Machine.execMuxSel addr s
  | .bitTest v k => Sys2Proof.Machine.execBitTest v k s
  | .setBit addr k => Sys2Proof.Machine.execSetBit addr k s
  | .combine v x => Sys2Proof.Machine.execCombine v x s
  | .trigSel m => Sys2Proof.Machine.execTrigSel m s
  | .issueBits p => Sys2Proof.Machine.execIssueBits p s
  | .lbaSplit l => Sys2Proof.Machine.execLbaSplit l s
  | .build => Sys2Proof.Machine.execBuild s
  | .desc l mode => Sys2Proof.Machine.execDesc l mode s
  | .busyFn a b => Sys2Proof.Machine.execBusyFn a b s
  | .classify sample => Sys2Proof.Machine.execClassify sample s
  | .waitCompletion => Sys2Proof.Machine.execWaitCompletion s
  | .slotAddr slot => Sys2Proof.Machine.execSlotAddr slot s
  | .stateAdvance => Sys2Proof.Machine.execStateAdvance s
  | .slotReset => Sys2Proof.Machine.execSlotReset s
  | .opcntSet => Sys2Proof.Machine.execOpcntSet s
  | .phase => Sys2Proof.Machine.execPhase s

end Sys2Proof.Machine
end

