-- ==== Sys2Proof/Machine/Step.lean ====
section
/-! DEFINITION. One step of the machine, and how a table word is placed where the step fetches. -/

namespace Sys2Proof.Machine

/-- One step: what `fetch` says comes next (R23, R144, R173). -/
def step (s : State) : Host.Outcome State Fault Refusal :=
  match fetch s with
  | .reset => .next s.blockReset
  | .waiting => .next s
  | .undecodable .notDescriptor => .refused .notDescriptor
  | .run i t => exec i t

/-- The state with the table word presented as the next thing the block does; unchanged where it is no word with a code (log 23, log 2). -/
def State.withFetchWord (s : State) (nbits w : Nat) : State :=
  match codedWordOf nbits w with
  | some pw => presentWord s pw
  | none => s

end Sys2Proof.Machine
end

