-- ==== Sys2Proof/Machine/Assembler.lean ====
section
/-! DEFINITION. The request lines of R90 as words, and the pseudo-instructions of R91 as lists of words HOST presents in order. -/

namespace Sys2Proof.Machine

/-- The line `WA_WRITE <field>, <imm8>` (R90). -/
def lineWaWrite (f : WaField) (imm : Byte) : ReqWord := mkReq 5 (waFieldCode f) imm

/-- The line `WA_READ <field>` (R90). -/
def lineWaRead (f : WaField) : ReqWord := mkReq 6 (waFieldCode f) 0

/-- The line `ISSUE` (R90). -/
def lineIssue : ReqWord := mkReq 1 0 0

/-- The line `CHECK_BUSY` (R90). -/
def lineCheckBusy : ReqWord := mkReq 2 0 0

/-- The line `WAIT` (R90). -/
def lineWait : ReqWord := mkReq 3 0 0

/-- The line `SLOT_ADDRESS` (R90). -/
def lineSlotAddress : ReqWord := mkReq 4 0 0

/-- `SET_LBA <imm32>` (R91). -/
def pseudoSetLba (l : Lba) : List ReqWord :=
  [lineWaWrite .lba0 (lbaByte0 l), lineWaWrite .lba1 (lbaByte1 l), lineWaWrite .lba2 (lbaByte2 l), lineWaWrite .lba3 (lbaByte3 l)]

/-- `SET_MODE <n>` (R91). -/
def pseudoSetMode (n : Byte) : List ReqWord := [lineWaWrite .mode n]

/-- `SET_STATUS <imm8>` (R91). -/
def pseudoSetStatus (imm : Byte) : List ReqWord := [lineWaWrite .cmdStatus imm]

/-- `CMD_RW <imm32>, <n>, <imm8>` (R91). -/
def pseudoCmdRw (l : Lba) (n imm : Byte) : List ReqWord :=
  pseudoSetLba l ++ pseudoSetMode n ++ pseudoSetStatus imm ++ [lineIssue]

/-- `SLOT <s>` (R91). -/
def pseudoSlot (x : Byte) : List ReqWord := [lineWaWrite .slotIndex x, lineSlotAddress]

end Sys2Proof.Machine
end

