-- ==== Sys2Proof/Safety.lean ====
section
/-! DEFINITION. What the claims are stated in: runs of steps, the place of a position in its operation, the invariant every step keeps,
and the access matrix. -/

namespace Sys2Proof.Machine

/-- `n` steps, stopping where one does not answer a next state. -/
def runSteps (n : Nat) (s : State) : Answer := Host.Core.run Sys2Proof.core n s

/-- The end of a run: no request word waits in the port and the block is ready (R155). R155 says "when the last word has been answered and
`pos = IDLE`" and does not mention reset. DESIGN CHOICE (log 35): a run whose last operation a reset abandoned, which gives no response (R179), counts
as ended too. The model's bench is no part of a program and is not asked about (log 2). -/
def runEnded (s : State) : Bool := s.port.isEmpty && s.pos == .idle

/-- The place of a position in the document's order of steps (R23). -/
def posRank : Pos → Nat
  | .idle => 0
  | .i1 => 1
  | .i2 => 2
  | .i3 => 3
  | .i4a => 4
  | .i4b => 5
  | .i4c => 6
  | .i5 => 7
  | .i6 => 8
  | .i7 => 9
  | .i8 => 10
  | .i9 => 11
  | .c1a => 12
  | .c1b => 13
  | .c1c => 14
  | .c1d => 15
  | .w2 => 16
  | .w3a => 17
  | .w3b => 18
  | .w4 => 19
  | .w5 => 20
  | .w6 => 21
  | .w7 => 22

/-- The step of position `p` is already behind the position of the state. -/
abbrev past (p : Pos) (s : State) : Prop := posRank p < posRank s.pos

/-- Position and operation fit together: `cur_op = NONE` iff `pos = IDLE` (R24, R45); a CHECK_BUSY is at C1a to C1d (R121), a WAIT at C1a
to W7 (R150). -/
abbrev sequencerFits (s : State) : Prop :=
  (s.curOp = .none ↔ s.pos = .idle) ∧
  (s.curOp = .checkBusy → 12 ≤ posRank s.pos ∧ posRank s.pos ≤ 15) ∧
  (s.curOp = .wait → 12 ≤ posRank s.pos)

/-- What admission has established still holds: an ISSUE in progress has its six fields and an admitted mode (R145 to R147), a WAIT its
status (R150); no agent can change them meanwhile (R155). -/
abbrev operandsAdmitted (s : State) : Prop :=
  (s.curOp = .issue → issueFieldsWritten s.wa = true ∧
    ∃ m, s.wa.mode = some m ∧ admittedMode s.cfg.modeOther m = true) ∧
  (s.curOp = .wait → s.wa.cmdStatus.isSome = true)

/-- "`{SA_HI, SA_LO}`, once it has a value, is one of the eight addresses" (R143). -/
abbrev latchIsASlot (s : State) : Prop :=
  s.saSet = true → ∃ slot : BitVec 3, latchAddr s.saHi s.saLo = slotAddr slot

/-- During an ISSUE each descriptor register holds its value as soon as its step is past (R103 to R113). -/
abbrev descriptorSoFar (s : State) : Prop :=
  s.curOp = .issue →
    (past .i1 s → s.regs.opcode = 0x32) ∧
    (past .i2 s → s.regs.cmdStatus = 0x90) ∧
    (past .i3 s → s.regs.issue = 0x01) ∧
    (s.pos = .i4b ∨ s.pos = .i4c → s.regs.tag = 0x04) ∧
    (s.pos = .i4c → s.cfg.tagReadback = .storage → s.tmp.t = 0x04) ∧
    (past .i4c s → s.regs.tag.getLsbD 4 = true ∧ (s.cfg.tagReadback = .storage → s.regs.tag = 0x14)) ∧
    (past .i5 s → s.wa.lba1 = some s.regs.lbaR0) ∧
    (past .i6 s → ∃ l0 l3, s.wa.lba0 = some l0 ∧ s.wa.lba3 = some l3 ∧ s.regs.lbaR1 = combine l0 l3) ∧
    (past .i7 s → ∃ l2, s.wa.lba2 = some l2 ∧ s.regs.lbaR2 = combine 0 l2) ∧
    (past .i8 s → s.trigger = some s.regs.trigger) ∧
    (past .i9 s → s.wa.opCounter = some 5)

/-- During a wait: CONTROL holds the status once W2 is past (R125), BUSY_B was written with bit 0 set once W3b is past (R127), the pulse was
seen clear once W4 is past (R128), and the slot index is 0 once W6 is past (R130). -/
abbrev waitSoFar (s : State) : Prop :=
  (past .w2 s → s.wa.cmdStatus = some s.regs.control) ∧
  (past .w3b s → s.regs.busyB = (s.tmp.r &&& 0xFE) ||| 0x01) ∧
  (past .w4 s → s.tmp.p.getLsbD 0 = false) ∧
  (past .w6 s → s.wa.slotIndex = 0)

/-- The invariant of the block: what every reachable state satisfies (R45, R143, R155) and what a completed step has established. -/
abbrev Consistent (s : State) : Prop :=
  sequencerFits s ∧ operandsAdmitted s ∧ latchIsASlot s ∧ descriptorSoFar s ∧ waitSoFar s

/-- The rows of the access matrix for reads (R41). -/
def matrixReads : Pos → Option Reg
  | .i4b => some .tag
  | .c1a | .c1c | .c1d => some .statusA
  | .c1b | .w3a | .w4 => some .busyB
  | .idle | .i1 | .i2 | .i3 | .i4a | .i4c | .i5 | .i6 | .i7 | .i8 | .i9 | .w2 | .w3b | .w5 | .w6 | .w7 => none

/-- The rows of the access matrix for writes (R41). -/
def matrixWrites : Pos → Option Reg
  | .i1 => some .opcode
  | .i2 => some .cmdStatus
  | .i3 => some .issue
  | .i4a | .i4c => some .tag
  | .i5 => some .lbaR0
  | .i6 => some .lbaR1
  | .i7 => some .lbaR2
  | .i8 => some .trigger
  | .w2 => some .control
  | .w3b => some .busyB
  | .idle | .i4b | .i9 | .c1a | .c1b | .c1c | .c1d | .w3a | .w4 | .w5 | .w6 | .w7 => none

/-- The transitions of the phase machine (R138); a step that keeps the phase keeps it in IDLE, BUILDING or WAITING. -/
def phaseMoves : Phase → Phase → Bool
  | .idle, .idle | .idle, .building | .idle, .waiting => true
  | .building, .building | .building, .triggered => true
  | .triggered, .waiting => true
  | .waiting, .waiting | .waiting, .complete => true
  | .complete, .idle => true
  | .idle, .triggered | .idle, .complete => false
  | .building, .idle | .building, .waiting | .building, .complete => false
  | .triggered, .idle | .triggered, .building | .triggered, .triggered | .triggered, .complete => false
  | .waiting, .idle | .waiting, .building | .waiting, .triggered => false
  | .complete, .building | .complete, .triggered | .complete, .waiting | .complete, .complete => false

end Sys2Proof.Machine
end

