-- ==== Sys2Proof/Certificates/Slice0/Obligations.lean ====
section
/-! DEFINITION. The statements for the provers. Each docstring names the rules of spec/ it formalises; where a clause rests on one of the
spec's own decisions (D<n> of 92_eei_decisions.md) or on an entry of the assumption log, it says so. -/

open Sys2Proof Sys2Proof.Machine

/-! ### Encoding -/

/-- Decode after encode, for every well-formed operation that has a word, with every operand at every value (R83 to R86, R69; the request
and bus words are the spec's decisions D2 and D3). The operations without a word are exactly those the table gives no code of their own. -/
def Obligations.EncodedOperationsDecodeBack : Prop :=
  (∀ (i : Instr) (w : CodedWord), i.wellFormed = true → encode i = some w → decode w = .ok i) ∧
  (∀ i : Instr, encode i = none ↔ codedMnemonic i = "")

/-- Encode after decode: a request word loses only its ignored bits, a read's bus word only its `wdata`, an image nothing (R84, R86, R90, R78;
decisions D2, D3, D23). -/
def Obligations.DecodedWordsReencode : Prop :=
  (∀ w : ReqWord, encode (decodeReq w) = some (.req (w &&& reqKeepMask w))) ∧
  (∀ w : BusWord, encode (decodeBus w) = some (.bus (if busWe w then w else w &&& 0x1FFFF00#25))) ∧
  (∀ (w : Image) (i : Instr), decodeImage w = .ok i → i.wellFormed = true ∧ encode i = some (.image w))

/-- Every request word and every bus word matches exactly one row of the opcode table by match and mask, the row of the operation it decodes
to (R84, R86, R88; decisions D2, D3). -/
def Obligations.EachWordMatchesExactlyItsRow : Prop :=
  (∀ w : ReqWord, (reqRows.filter (fun r => rowMatches r w)).map (fun r => r.mnemonic) = [codedMnemonic (decodeReq w)]) ∧
  (∀ w : BusWord, (busRows.filter (fun r => rowMatches r w)).map (fun r => r.mnemonic) = [codedMnemonic (decodeBus w)])

/-- Words written out in 95_test_vectors.md (V1.13, V1.14, V11, P1, P6) decode to what that file says they are. A sanity statement. -/
def Obligations.WordsOfTheTestVectorsDecode : Prop :=
  decode (.req 0x1000) = .ok .issue ∧
  decode (.req 0x10FF) = .ok .issue ∧
  decode (.req 0x2000) = .ok .checkBusy ∧
  decode (.req 0x3000) = .ok .wait ∧
  decode (.req 0x4000) = .ok .slotAddress ∧
  decode (.req 0x5778) = .ok (.waWrite 7 0x78) ∧
  decode (.req 0x500D) = .ok (.waWrite 0 0x0D) ∧
  decode (.req 0x6100) = .ok (.waRead 1) ∧
  decode (.req 0x5B00) = .ok (.waWrite 11 0x00) ∧
  decode (.req 0x0000) = .ok .reservedOp0 ∧
  decode (.req 0x7000) = .ok .reservedOp7 ∧
  decode (.req 0x8ABC) = .ok (.reservedOp8F 0) ∧
  decode (.req 0xF123) = .ok (.reservedOp8F 7) ∧
  decode (.bus 0b0111001000100001000000000#25) = .ok (.regRd 0xE442) ∧
  decode (.bus 0b1111001000100001001011010#25) = .ok (.regWr 0xE442 0x5A) ∧
  decode (.image 0x329001145678D080#64) = .ok (.descRwM23 0x56 0x78 0xD0)

/-! ### The step -/

/-- At IDLE with reset not asserted and the bench empty, HOST's next request word is taken from the port and the request it decodes to is
performed; with nothing presented the block waits and nothing changes (R144, R23, R174, D2; the port is the model's, log 23). A word on the model's
bench (log 2) is taken first and performed; an image there that is no descriptor is refused by name. -/
def Obligations.StepPerformsThePresentedOperation : Prop :=
  ∀ s : State, s.resetIn = false → s.pos = .idle →
    (∀ (w : ReqWord) (rest : List ReqWord), s.bench = none → s.port = w :: rest →
      decode (.req w) = .ok (decodeReq w) ∧ step s = exec (decodeReq w) { s with port := rest }) ∧
    (∀ (w : BenchWord) (i : Instr), s.bench = some w → decode w.coded = .ok i → step s = exec i { s with bench := none }) ∧
    (∀ (w : BenchWord) (e : DecodeError), s.bench = some w → decode w.coded = .error e → step s = .refused .notDescriptor) ∧
    (s.bench = none → s.port = [] → step s = .next s)

/-- Away from IDLE with reset not asserted, the step of the position is performed, whatever is presented (R23, R112, R144). -/
def Obligations.StepPerformsTheStepOfItsPosition : Prop :=
  ∀ (s : State) (i : Instr), s.resetIn = false → stepAt s.pos s.wa.mode = some i → step s = exec i s

/-- While the block is not ready no presented word is taken: port and bench are as they were after the step, and what is presented makes no
difference to anything else; and a request performed then has no effect (R144, R155, decision D2; log 2, log 27). -/
def Obligations.RequestsAreHeldWhileNotReady : Prop :=
  (∀ (s t : State) (q : List ReqWord) (k : Option BenchWord), s.resetIn = false → s.pos ≠ .idle → step s = .next t →
    t.port = s.port ∧ t.bench = s.bench ∧ step { s with port := q, bench := k } = .next { t with port := q, bench := k }) ∧
  (∀ (s : State) (c : BitVec 4) (d : Byte) (op : BitVec 3), s.pos ≠ .idle →
    ∀ i ∈ [Instr.issue, .checkBusy, .wait, .slotAddress, .waWrite c d, .waRead c, .reservedOp0, .reservedOp7, .reservedOp8F op],
      exec i s = .next s)

/-! ### Reset -/

/-- What reset leaves, as the spec's decision D6 has it (R46, R174 to R178): IDLE, NONE, ready, nine fields and the latch without a value, an
empty history; and the defaults of the two parameters (D7, D9). -/
def Obligations.ResetLeavesTheStatedValues : Prop :=
  State.reset.pos = .idle ∧ State.reset.curOp = .none ∧ State.reset.ready = true ∧ State.reset.phase = .idle ∧
  State.reset.wa.opCounter = none ∧ State.reset.wa.cmdStatus = none ∧ State.reset.wa.mode = none ∧
  State.reset.wa.param0 = none ∧ State.reset.wa.param1 = none ∧
  State.reset.wa.lba0 = none ∧ State.reset.wa.lba1 = none ∧ State.reset.wa.lba2 = none ∧ State.reset.wa.lba3 = none ∧
  State.reset.saSet = false ∧ State.reset.history = [] ∧ State.reset.responses = [] ∧ State.reset.taxonomy = .unknown ∧
  State.reset.cfg.modeOther = .refuse ∧ State.reset.cfg.tagReadback = .storage

/-- Reset during an operation abandons it: no response, no transaction, the engine registers stay as written, the block is ready and its
fields are without a value (R178, R179, decision D6; the reset input is the model's, log 21). -/
def Obligations.ResetInputAbandonsTheOperation : Prop :=
  ∀ s : State, s.resetIn = true → ∃ t, step s = .next t ∧
    t.pos = .idle ∧ t.curOp = .none ∧ t.ready = true ∧ t.regs = s.regs ∧ t.history = s.history ∧ t.responses = s.responses ∧
    t.cfg = s.cfg ∧ t.port = s.port ∧ t.bench = s.bench ∧ t.env = s.env ∧ t.resetIn = false ∧ t.saSet = false ∧ t.taxonomy = .unknown ∧
    t.wa = { slotIndex := t.wa.slotIndex, cmdState := t.wa.cmdState, opCounter := none, cmdStatus := none, mode := none,
             param0 := none, param1 := none, lba0 := none, lba1 := none, lba2 := none, lba3 := none }

/-! ### Requests -/

/-- ISSUE with its six fields written and an admitted mode: `cur_op <- ISSUE; pos <- I1`, and nothing else changes (R145, R146; decisions D7,
D10, D13, D26). -/
def Obligations.IssueAcceptedStartsTheBuild : Prop :=
  ∀ (s : State) (l0 l1 l2 l3 m st : Byte), s.pos = .idle →
    s.wa.lba0 = some l0 → s.wa.lba1 = some l1 → s.wa.lba2 = some l2 → s.wa.lba3 = some l3 →
    s.wa.mode = some m → s.wa.cmdStatus = some st →
    (m = 1 ∨ m = 2 ∨ m = 3 ∨ s.cfg.modeOther = .asMode1) →
    exec .issue s = .next { s with curOp := .issue, pos := .i1 }

/-- ISSUE refused: an unwritten field first, then the mode (R145 to R147, C13; decisions D7, D26). Only the response is added. -/
def Obligations.IssueRefusesUnwrittenFieldsThenTheMode : Prop :=
  (∀ s : State, s.pos = .idle →
    (s.wa.lba0 = none ∨ s.wa.lba1 = none ∨ s.wa.lba2 = none ∨ s.wa.lba3 = none ∨ s.wa.mode = none ∨ s.wa.cmdStatus = none) →
    exec .issue s = .next { s with responses := s.responses ++ [.refused .unwrittenField] }) ∧
  (∀ (s : State) (l0 l1 l2 l3 m st : Byte), s.pos = .idle →
    s.wa.lba0 = some l0 → s.wa.lba1 = some l1 → s.wa.lba2 = some l2 → s.wa.lba3 = some l3 →
    s.wa.mode = some m → s.wa.cmdStatus = some st → s.cfg.modeOther = .refuse → m ≠ 1 → m ≠ 2 → m ≠ 3 →
    exec .issue s = .next { s with responses := s.responses ++ [.refused .badMode] })

/-- CHECK_BUSY is never refused: `cur_op <- CHECK_BUSY; pos <- C1a`; WAIT: `cur_op <- WAIT; pos <- C1a` where `WA.cmd_status` has a value, refused
where it has none; nothing else changes (R149, R150; decisions D22, D26). -/
def Obligations.CheckBusyAndWaitEnterTheCheck : Prop :=
  ∀ s : State, s.pos = .idle →
    exec .checkBusy s = .next { s with curOp := .checkBusy, pos := .c1a } ∧
    (∀ st : Byte, s.wa.cmdStatus = some st → exec .wait s = .next { s with curOp := .wait, pos := .c1a }) ∧
    (s.wa.cmdStatus = none → exec .wait s = .next { s with responses := s.responses ++ [.refused .unwrittenField] })

/-- SLOT_ADDRESS latches and answers `0xE442 + slot * 32` in one step at IDLE, with no transaction (R134, R151; decision D19). -/
def Obligations.SlotAddressLatchesAndAnswers : Prop :=
  ∀ s : State, s.pos = .idle → ∃ x : Address, x.toNat = 0xE442 + s.wa.slotIndex.toNat * 32 ∧
    exec .slotAddress s = .next { s with
      saHi := x.extractLsb' 8 8, saLo := x.extractLsb' 0 8, saSet := true, responses := s.responses ++ [.okAddr x] }

/-- WA_WRITE: the field of each code receives `data`, the two 3-bit fields `data[2:0]`, and the answer is `ok`; a code above 10 is refused
(R152, R85; decisions D4, D5). -/
def Obligations.WaWriteStoresItsField : Prop :=
  ∀ (s : State) (d : Byte), s.pos = .idle →
    (∀ p ∈ [(0#4, { s.wa with slotIndex := d.extractLsb' 0 3 }), (1#4, { s.wa with opCounter := some d }),
        (2#4, { s.wa with cmdState := d.extractLsb' 0 3 }), (3#4, { s.wa with cmdStatus := some d }),
        (4#4, { s.wa with mode := some d }), (5#4, { s.wa with param0 := some d }), (6#4, { s.wa with param1 := some d }),
        (7#4, { s.wa with lba0 := some d }), (8#4, { s.wa with lba1 := some d }), (9#4, { s.wa with lba2 := some d }),
        (10#4, { s.wa with lba3 := some d })],
      exec (.waWrite p.1 d) s = .next { s with wa := p.2, responses := s.responses ++ [.ok] }) ∧
    (∀ c : BitVec 4, 10 < c.toNat →
      exec (.waWrite c d) s = .next { s with responses := s.responses ++ [.refused .reservedField] })

/-- WA_READ: the field of each code is answered, zero-extended to 8 bits; a field without a value and a code above 10 are refused; only the
response is added (R153, R85; decision D5). -/
def Obligations.WaReadAnswersItsField : Prop :=
  ∀ s : State, s.pos = .idle →
    (∀ p ∈ [(0#4, some (s.wa.slotIndex.setWidth 8)), (1#4, s.wa.opCounter), (2#4, some (s.wa.cmdState.setWidth 8)),
        (3#4, s.wa.cmdStatus), (4#4, s.wa.mode), (5#4, s.wa.param0), (6#4, s.wa.param1),
        (7#4, s.wa.lba0), (8#4, s.wa.lba1), (9#4, s.wa.lba2), (10#4, s.wa.lba3)],
      (∀ v : Byte, p.2 = some v → exec (.waRead p.1) s = .next { s with responses := s.responses ++ [.okByte v] }) ∧
      (p.2 = none → exec (.waRead p.1) s = .next { s with responses := s.responses ++ [.refused .unwrittenField] })) ∧
    (∀ c : BitVec 4, 10 < c.toNat →
      exec (.waRead c) s = .next { s with responses := s.responses ++ [.refused .reservedField] })

/-- The reserved operation codes are answered `refused(reserved_op)`, and nothing else changes (R154, decision D2): that is their whole effect. -/
def Obligations.ReservedRequestsAnswerReservedOp : Prop :=
  ∀ (s : State) (op : BitVec 3), s.pos = .idle →
    exec .reservedOp0 s = .next { s with responses := s.responses ++ [.refused .reservedOp] } ∧
    exec .reservedOp7 s = .next { s with responses := s.responses ++ [.refused .reservedOp] } ∧
    exec (.reservedOp8F op) s = .next { s with responses := s.responses ++ [.refused .reservedOp] }

/-- A refusal adds its response and leaves every other piece of state as it was, whichever operation answers it (R156, R164; decisions D2, D7,
D26; claim 8 of 95_test_vectors.md). -/
def Obligations.RefusalsChangeNothingElse : Prop :=
  ∀ (i : Instr) (s t : State) (why : RefuseReason), exec i s = .next t →
    t.responses = s.responses ++ [.refused why] → t = { s with responses := s.responses ++ [.refused why] }

/-! ### Register file -/

/-- REG_RD returns a draw at STATUS_A, BUSY_B, TAG under `TAG_READBACK = draw` and every address no register has, and the stored byte at the
other registers; the history grows by the read, and no register changes (R93, R54). It never fails (R52). At TRIGGER, for which R93 says the stored
byte and U5 of 93_implementation_defined.md any value, the model's own open parameter decides (log 33). The delivery of the byte in `result` is the
model's (log 16), and so are reading back what was stored at the registers SEQ never reads (log 12) and taking the draw of whichever address from
one list, that of the reads of STATUS_A and BUSY_B (log 36). -/
def Obligations.RegisterReadReturnsTheSelectedByte : Prop :=
  ∀ (s : State) (addr : Address),
    ((addr = s.cfg.addrs.aStatusA ∨ addr = s.cfg.addrs.aBusyB ∨ (addr = s.cfg.addrs.aTag ∧ s.cfg.tagReadback = .draw) ∨
        (addr = s.cfg.addrs.aTrigger ∧ s.cfg.triggerReadback = .draw) ∨ (∀ r, addr ≠ s.cfg.addrs.addrOf r)) →
      exec (.regRd addr) s = .next { s.afterDraw with
        history := s.history ++ [.read addr s.drawn], result := .byte s.drawn }) ∧
    (∀ p ∈ [(Reg.control, s.regs.control), (.opcode, s.regs.opcode), (.cmdStatus, s.regs.cmdStatus),
        (.issue, s.regs.issue), (.lbaR0, s.regs.lbaR0), (.lbaR1, s.regs.lbaR1), (.lbaR2, s.regs.lbaR2)],
      addr = s.cfg.addrs.addrOf p.1 →
      exec (.regRd addr) s = .next { s with history := s.history ++ [.read addr p.2], result := .byte p.2 }) ∧
    (addr = s.cfg.addrs.aTrigger → s.cfg.triggerReadback = .storage →
      exec (.regRd addr) s = .next { s with
        history := s.history ++ [.read addr s.regs.trigger], result := .byte s.regs.trigger }) ∧
    (addr = s.cfg.addrs.aTag → s.cfg.tagReadback = .storage →
      exec (.regRd addr) s = .next { s with history := s.history ++ [.read addr s.regs.tag], result := .byte s.regs.tag })

/-- REG_WR stores the byte in the one register the address names, BUSY_B as ENG sees it; at STATUS_A, in a window and at an unmapped address
nothing is stored; the history grows by the write in every case (R94). -/
def Obligations.RegisterWriteStoresTheByte : Prop :=
  ∀ (s : State) (v : Byte),
    (∀ p ∈ [(s.cfg.addrs.aControl, { s.regs with control := v }), (s.cfg.addrs.aBusyB, { s.regs with busyB := v }),
        (s.cfg.addrs.aTrigger, { s.regs with trigger := v }), (s.cfg.addrs.aOpcode, { s.regs with opcode := v }),
        (s.cfg.addrs.aCmdStatus, { s.regs with cmdStatus := v }), (s.cfg.addrs.aIssue, { s.regs with issue := v }),
        (s.cfg.addrs.aTag, { s.regs with tag := v }), (s.cfg.addrs.aLbaR0, { s.regs with lbaR0 := v }),
        (s.cfg.addrs.aLbaR1, { s.regs with lbaR1 := v }), (s.cfg.addrs.aLbaR2, { s.regs with lbaR2 := v }),
        (s.cfg.addrs.aStatusA, s.regs)],
      exec (.regWr p.1 v) s = .next { s with regs := p.2, history := s.history ++ [.write p.1 v] }) ∧
    (∀ addr : Address, (∀ r, addr ≠ s.cfg.addrs.addrOf r) →
      exec (.regWr addr v) s = .next { s with history := s.history ++ [.write addr v] })

/-- MUX_SEL: a named register first; else the window byte, slot and offset recovered from the address; else nothing. Pure (R95, R59; decision
D18; delivery in `result`, log 16). -/
def Obligations.MultiplexerSelectsNamedThenWindows : Prop :=
  ∀ s : State,
    (∀ r : Reg, exec (.muxSel (s.cfg.addrs.addrOf r)) s = .next { s with result := .selection (.reg r) }) ∧
    (∀ (addr : Address) (slot : BitVec 3) (offset : BitVec 5), (∀ r, addr ≠ s.cfg.addrs.addrOf r) →
      addr.toNat = 0xE442 + slot.toNat * 32 + offset.toNat →
      exec (.muxSel addr) s = .next { s with result := .selection (.window slot offset) }) ∧
    (∀ addr : Address, (∀ r, addr ≠ s.cfg.addrs.addrOf r) → addr.toNat < 0xE442 ∨ 0xE541 < addr.toNat →
      exec (.muxSel addr) s = .next { s with result := .selection .nothing })

/-- BITTEST delivers `(v >> i) & 1` and changes nothing else (R96, which the spec derives; delivery in `result`, log 16). SETBIT is a REG_RD and
then a REG_WR of the byte read with bit `i` set, two transactions in that order (R97, decision D25; performed in one step, log 19). -/
def Obligations.BitTestSelectsAndSetBitReadsThenWrites : Prop :=
  (∀ (s : State) (v : Byte) (i : Fin 8),
    exec (.bitTest v i) s = .next { s with result := .bit ((v >>> i.val) &&& 1 == 1) }) ∧
  (∀ (s : State) (addr : Address) (i : Fin 8), ∃ (x : Byte) (t u : State),
    exec (.regRd addr) s = .next t ∧ t.result = .byte x ∧
    exec (.regWr addr (x ||| (1#8 <<< i.val))) { t with result := s.result } = .next u ∧
    exec (.setBit addr i) s = .next u)

/-! ### Descriptor builder: functions -/

/-- COMBINE: the formula, its equivalent forms and its corner cases (R99): `v` passes through whole, `s[7:6]` never matter, bits 7:2 are OR-ed and
not replaced, idempotent for fixed `s`; delivered and nothing else changed (log 16). -/
def Obligations.CombinePacksByOr : Prop :=
  ∀ v x : Byte,
    (∀ s : State, exec (.combine v x) s = .next { s with result := .byte (v ||| ((x <<< 2) &&& 0xFC)) }) ∧
    combine v x = v ||| ((x &&& 0x3F) <<< 2) ∧
    (combine v x).extractLsb' 0 2 = v.extractLsb' 0 2 ∧
    (combine v x).extractLsb' 2 6 = v.extractLsb' 2 6 ||| x.extractLsb' 0 6 ∧
    combine v 0 = v ∧
    combine 0xFF x = 0xFF ∧
    combine v x &&& v = v ∧
    combine 0 x = (x <<< 2) &&& 0xFC ∧
    (combine 0 x).extractLsb' 0 2 = 0 ∧
    combine (combine v x) x = combine v x

/-- TRIGSEL: 0x80 for mode 2 or 3, 0x40 for mode 1; any other mode 0x40 under `as_mode1` and `bad_mode` under `refuse` (R100, R146; decision D7; the
report of the refusal in `result` is the model's, log 16 and log 17). ISSUEBITS: `(p >> 6) & 0x03` (R101, decision D21). -/
def Obligations.TriggerSelectionAndIssueBits : Prop :=
  ∀ (s : State) (m : Byte),
    (m = 2 ∨ m = 3 → exec (.trigSel m) s = .next { s with result := .byte 0x80 }) ∧
    (m = 1 → exec (.trigSel m) s = .next { s with result := .byte 0x40 }) ∧
    (m ≠ 1 → m ≠ 2 → m ≠ 3 → s.cfg.modeOther = .asMode1 → exec (.trigSel m) s = .next { s with result := .byte 0x40 }) ∧
    (m ≠ 1 → m ≠ 2 → m ≠ 3 → s.cfg.modeOther = .refuse → exec (.trigSel m) s = .next { s with result := .refused .badMode }) ∧
    (∃ v : Byte, v.toNat = m.toNat / 64 ∧ exec (.issueBits m) s = .next { s with result := .byte v })

/-- LBASPLIT: `lba0 = L[7:0]`, `lba1 = L[15:8]`, `lba2 = L[23:16]`, `lba3 = L[31:24]`, so the four bytes make up the LBA again (R102); delivery in
`result` (log 16). -/
def Obligations.LbaSplitIsLittleEndian : Prop :=
  ∀ (s : State) (l : Lba), ∃ l0 l1 l2 l3 : Byte,
    exec (.lbaSplit l) s = .next { s with result := .lbaBytes l0 l1 l2 l3 } ∧ l = l3 ++ l2 ++ l1 ++ l0

/-- DESC for modes 1, 2 and 3: the eight bytes in image order (R116, which the spec derives; R69); for another mode as TRIGSEL has it (D7).
Delivery in `result` (log 16, log 17). -/
def Obligations.DescriptorClosedForm : Prop :=
  ∀ (s : State) (l : Lba) (m : Byte),
    (∀ trig : Byte, (m = 1 ∧ trig = 0x40) ∨ ((m = 2 ∨ m = 3) ∧ trig = 0x80) →
      exec (.desc l m) s = .next { s with
        result := .image (0x32#8 ++ 0x90#8 ++ 0x01#8 ++ 0x14#8 ++ l.extractLsb' 8 8 ++
          (l.extractLsb' 0 8 ||| (l.extractLsb' 24 8 <<< 2)) ++ (l.extractLsb' 16 8 <<< 2) ++ trig) }) ∧
    (m ≠ 1 → m ≠ 2 → m ≠ 3 → s.cfg.modeOther = .refuse → exec (.desc l m) s = .next { s with result := .refused .badMode }) ∧
    (m ≠ 1 → m ≠ 2 → m ≠ 3 → s.cfg.modeOther = .asMode1 → exec (.desc l m) s = exec (.desc l 1) s)

/-- What a descriptor gives back and what it loses (R78, R117, R193): of two LBAs with admitted modes the descriptors are the same exactly when the
LBAs agree on bits 15:8, 21:16, 1:0 and on the OR of bits 7:2 with bits 29:24, and the modes are both or neither of {2, 3}; a mode that is not
admitted has none (R146, decision D7). Two pairs of different LBAs have one descriptor each. -/
def Obligations.DescriptorForgetsLbaBits : Prop :=
  (∀ (mo : ModeOther) (l k : Lba) (m n : Byte), admittedMode mo m = true → admittedMode mo n = true →
    (descOf mo l m = descOf mo k n ↔
      l.extractLsb' 8 8 = k.extractLsb' 8 8 ∧ l.extractLsb' 16 6 = k.extractLsb' 16 6 ∧ l.extractLsb' 0 2 = k.extractLsb' 0 2 ∧
      l.extractLsb' 2 6 ||| l.extractLsb' 24 6 = k.extractLsb' 2 6 ||| k.extractLsb' 24 6 ∧
      ((m = 2 ∨ m = 3) ↔ (n = 2 ∨ n = 3)))) ∧
  (∀ (mo : ModeOther) (l : Lba) (m : Byte), descOf mo l m = none ↔ admittedMode mo m = false) ∧
  (∀ mo : ModeOther, descOf mo 0x3F000000 2 = descOf mo 0x000000FC 2 ∧ descOf mo 0xC0C00000 3 = descOf mo 0x00000000 3)

/-- The rows DESC_RW_M1 and DESC_RW_M23 report the fields of their image and whether the eight descriptor registers hold it; nothing else changes
(R69, R78, R116; that this is what performing an image does is the model's, log 18). -/
def Obligations.DescriptorRowsReportTheRegisters : Prop :=
  ∀ (s : State) (b c d : Byte),
    (∃ held : Bool, exec (.descRwM1 b c d) s = .next { s with result := .descriptor true b c d held } ∧
      (held = true ↔ s.regs.opcode = 0x32 ∧ s.regs.cmdStatus = 0x90 ∧ s.regs.issue = 0x01 ∧ s.regs.tag = 0x14 ∧
        s.regs.lbaR0 = b ∧ s.regs.lbaR1 = c ∧ s.regs.lbaR2 = d ∧ s.regs.trigger = 0x40)) ∧
    (∃ held : Bool, exec (.descRwM23 b c d) s = .next { s with result := .descriptor false b c d held } ∧
      (held = true ↔ s.regs.opcode = 0x32 ∧ s.regs.cmdStatus = 0x90 ∧ s.regs.issue = 0x01 ∧ s.regs.tag = 0x14 ∧
        s.regs.lbaR0 = b ∧ s.regs.lbaR1 = c ∧ s.regs.lbaR2 = d ∧ s.regs.trigger = 0x80))

/-! ### Descriptor builder: steps -/

/-- Steps I1, I2 and I3: the opcode 0x32, the status 0x90 and the issue byte 0x01 are written, one transaction each, and the position advances
(R103, R104, R105). -/
def Obligations.OpcodeStatusAndIssueSteps : Prop :=
  ∀ s : State,
    (s.pos = .i1 → exec .stepI1 s = .next { s with
      regs := { s.regs with opcode := 0x32 }, history := s.history ++ [.write s.cfg.addrs.aOpcode 0x32], pos := .i2 }) ∧
    (s.pos = .i2 → exec .stepI2 s = .next { s with
      regs := { s.regs with cmdStatus := 0x90 }, history := s.history ++ [.write s.cfg.addrs.aCmdStatus 0x90], pos := .i3 }) ∧
    (s.pos = .i3 → exec .stepI3 s = .next { s with
      regs := { s.regs with issue := 0x01 }, history := s.history ++ [.write s.cfg.addrs.aIssue 0x01], pos := .i4a })

/-- Steps I4a, I4b and I4c: TAG receives 0x04, is read into `t` (the stored byte under `TAG_READBACK = storage`, a draw under `draw`), and receives
`t | 0x10`; under `storage` the three together read 0x04 and leave 0x14 (R106, R107, R108; decision D9). That the draw of TAG is the next byte of the
list that gives the reads of STATUS_A and BUSY_B theirs is the model's choice (log 36). -/
def Obligations.TagReadModifyWriteSteps : Prop :=
  ∀ s : State,
    (s.pos = .i4a → exec .stepI4a s = .next { s with
      regs := { s.regs with tag := 0x04 }, history := s.history ++ [.write s.cfg.addrs.aTag 0x04], pos := .i4b }) ∧
    (s.pos = .i4b → s.cfg.tagReadback = .storage → exec .stepI4b s = .next { s with
      tmp := { s.tmp with t := s.regs.tag }, history := s.history ++ [.read s.cfg.addrs.aTag s.regs.tag], pos := .i4c }) ∧
    (s.pos = .i4b → s.cfg.tagReadback = .draw → exec .stepI4b s = .next { s.afterDraw with
      tmp := { s.tmp with t := s.drawn }, history := s.history ++ [.read s.cfg.addrs.aTag s.drawn], pos := .i4c }) ∧
    (s.pos = .i4c → exec .stepI4c s = .next { s with
      regs := { s.regs with tag := s.tmp.t ||| 0x10 }
      history := s.history ++ [.write s.cfg.addrs.aTag (s.tmp.t ||| 0x10)], pos := .i5 }) ∧
    (s.pos = .i4a → s.cfg.tagReadback = .storage → ∃ t u v, exec .stepI4a s = .next t ∧ exec .stepI4b t = .next u ∧ u.tmp.t = 0x04 ∧
      exec .stepI4c u = .next v ∧ v.regs.tag = 0x14)

/-- Steps I5, I6 and I7: LBA_R0 receives `WA.lba1`, LBA_R1 `combine(WA.lba0, WA.lba3)`, LBA_R2 `combine(0, WA.lba2)` (R109, R110, R111). -/
def Obligations.LbaPackingSteps : Prop :=
  ∀ (s : State) (l0 l1 l2 l3 : Byte),
    (s.pos = .i5 → s.wa.lba1 = some l1 → exec .stepI5 s = .next { s with
      regs := { s.regs with lbaR0 := l1 }, history := s.history ++ [.write s.cfg.addrs.aLbaR0 l1], pos := .i6 }) ∧
    (s.pos = .i6 → s.wa.lba0 = some l0 → s.wa.lba3 = some l3 → exec .stepI6 s = .next { s with
      regs := { s.regs with lbaR1 := l0 ||| ((l3 <<< 2) &&& 0xFC) }
      history := s.history ++ [.write s.cfg.addrs.aLbaR1 (l0 ||| ((l3 <<< 2) &&& 0xFC))], pos := .i7 }) ∧
    (s.pos = .i7 → s.wa.lba2 = some l2 → exec .stepI7 s = .next { s with
      regs := { s.regs with lbaR2 := (l2 <<< 2) &&& 0xFC }
      history := s.history ++ [.write s.cfg.addrs.aLbaR2 ((l2 <<< 2) &&& 0xFC)], pos := .i8 })

/-- Step I8: 0x40 for mode 1 and 0x80 for mode 2 or 3 is written to TRIGGER, by the row the mode selects, and the phase of the
operation becomes TRIGGERED (R112). -/
def Obligations.TriggerStepWritesByMode : Prop :=
  ∀ (s : State) (m : Byte), s.pos = .i8 → s.wa.mode = some m →
    (m = 1 → exec .stepI8M1 s = .next { s with
      regs := { s.regs with trigger := 0x40 }, history := s.history ++ [.write s.cfg.addrs.aTrigger 0x40], pos := .i9 }) ∧
    (m = 2 ∨ m = 3 → exec .stepI8M23 s = .next { s with
      regs := { s.regs with trigger := 0x80 }, history := s.history ++ [.write s.cfg.addrs.aTrigger 0x80], pos := .i9 }) ∧
    (∀ t, exec .stepI8M1 s = .next t ∨ exec .stepI8M23 s = .next t → s.curOp = .issue → t.phase = .triggered)

/-- Step I8 for another mode: under `as_mode1` row M1 writes 0x40 (R100, decision D7) and row M23 is not selected; the row the mode does not select
stops (R112; log 13). Under `refuse`, and with no mode at all, where admission has kept the case away, both rows and BUILD stop (log 15). Every
step, and BUILD, stops away from its position, and WAIT_COMPLETION where no ISSUE or WAIT is in progress or away from C1a to W7 (R23, 41 section 2,
R132; the refusal is the model's, log 13). -/
def Obligations.StepsOutsideTheirCase : Prop :=
  (∀ (s : State) (m : Byte), s.pos = .i8 → s.wa.mode = some m →
    (m ≠ 1 → m ≠ 2 → m ≠ 3 → s.cfg.modeOther = .asMode1 →
      exec .stepI8M1 s = .next { s with
        regs := { s.regs with trigger := 0x40 }, history := s.history ++ [.write s.cfg.addrs.aTrigger 0x40], pos := .i9 } ∧
      exec .stepI8M23 s = .refused .notSelected) ∧
    (m = 1 → exec .stepI8M23 s = .refused .notSelected) ∧
    (m = 2 ∨ m = 3 → exec .stepI8M1 s = .refused .notSelected)) ∧
  (∀ s : State,
    (s.wa.mode = none ∨ ∃ m, s.wa.mode = some m ∧ m ≠ 1 ∧ m ≠ 2 ∧ m ≠ 3 ∧ s.cfg.modeOther = .refuse) →
    (s.pos = .i8 → exec .stepI8M1 s = .fault .modeNotSpecified ∧ exec .stepI8M23 s = .fault .modeNotSpecified) ∧
    (s.pos = .i1 → exec .build s = .fault .modeNotSpecified)) ∧
  (∀ s : State, ∀ p ∈ [(Instr.stepI1, Pos.i1), (.stepI2, .i2), (.stepI3, .i3), (.stepI4a, .i4a), (.stepI4b, .i4b), (.stepI4c, .i4c),
      (.stepI5, .i5), (.stepI6, .i6), (.stepI7, .i7), (.stepI8M1, .i8), (.stepI8M23, .i8), (.stepI9, .i9), (.stepC1a, .c1a),
      (.stepC1b, .c1b), (.stepC1c, .c1c), (.stepC1d, .c1d), (.stepW2, .w2), (.stepW3a, .w3a), (.stepW3b, .w3b), (.stepW4, .w4),
      (.stepW5, .w5), (.stepW6, .w6), (.stepW7, .w7), (.build, .i1)],
    s.pos ≠ p.2 → exec p.1 s = .refused .notAtPosition) ∧
  (∀ s : State,
    s.curOp = .none ∨ s.curOp = .checkBusy ∨ s.pos ∉ [Pos.c1a, .c1b, .c1c, .c1d, .w2, .w3a, .w3b, .w4, .w5, .w6, .w7] →
    exec .waitCompletion s = .refused .notAtPosition)

/-- Step I9: the operation counter becomes 5 and the wait is entered, with no transaction (R113; that both halves are one step is decision D27). -/
def Obligations.OperationCounterStep : Prop :=
  ∀ s : State, s.pos = .i9 → exec .stepI9 s = .next { s with wa := { s.wa with opCounter := some 5 }, pos := .c1a }

/-- Steps I5, I6, I7 and W2, which read a byte of the LBA or the status, read a draw where that field has no value (R21's alternative; log 14),
the next byte of the list that gives the reads of STATUS_A and BUSY_B theirs (the model's choice, log 36).
Admission keeps the case away (R147). Step I8, which reads the mode, stops instead: `StepsOutsideTheirCase` says so (log 15). -/
def Obligations.LbaAndStatusStepsReadUnwrittenFieldsAsDraws : Prop :=
  ∀ s : State,
    (s.pos = .i5 → s.wa.lba1 = none → exec .stepI5 s = .next { s.afterDraw with
      regs := { s.regs with lbaR0 := s.drawn }, history := s.history ++ [.write s.cfg.addrs.aLbaR0 s.drawn], pos := .i6 }) ∧
    (∀ l3, s.pos = .i6 → s.wa.lba0 = none → s.wa.lba3 = some l3 → exec .stepI6 s = .next { s.afterDraw with
      regs := { s.regs with lbaR1 := combine s.drawn l3 }
      history := s.history ++ [.write s.cfg.addrs.aLbaR1 (combine s.drawn l3)], pos := .i7 }) ∧
    (∀ l0, s.pos = .i6 → s.wa.lba0 = some l0 → s.wa.lba3 = none → exec .stepI6 s = .next { s.afterDraw with
      regs := { s.regs with lbaR1 := combine l0 s.drawn }
      history := s.history ++ [.write s.cfg.addrs.aLbaR1 (combine l0 s.drawn)], pos := .i7 }) ∧
    (s.pos = .i6 → s.wa.lba0 = none → s.wa.lba3 = none → exec .stepI6 s = .next { s.afterDraw.afterDraw with
      regs := { s.regs with lbaR1 := combine s.drawn s.afterDraw.drawn }
      history := s.history ++ [.write s.cfg.addrs.aLbaR1 (combine s.drawn s.afterDraw.drawn)], pos := .i7 }) ∧
    (s.pos = .i7 → s.wa.lba2 = none → exec .stepI7 s = .next { s.afterDraw with
      regs := { s.regs with lbaR2 := combine 0 s.drawn }
      history := s.history ++ [.write s.cfg.addrs.aLbaR2 (combine 0 s.drawn)], pos := .i8 }) ∧
    (s.pos = .w2 → s.wa.cmdStatus = none → exec .stepW2 s = .next { s.afterDraw with
      regs := { s.regs with control := s.drawn }, history := s.history ++ [.write s.cfg.addrs.aControl s.drawn], pos := .w3a })

/-- BUILD: exactly the ten transactions of R115, the descriptor registers as in R116, and the operation counter 5, at the entry of the wait (R115;
decision D10; performed at once, log 20). The byte `tv` read from TAG is 0x04 under `TAG_READBACK = storage`, so that TAG becomes 0x14, and a draw
under `draw` (decision D9), the next byte of the list that gives the reads of STATUS_A and BUSY_B theirs (the model's choice, log 36); a mode other
than 1, 2 and 3 under `MODE_OTHER = as_mode1` is built as mode 1 (decision D7). -/
def Obligations.BuildMakesItsTenTransactions : Prop :=
  ∀ (s u : State) (l0 l1 l2 l3 m trig tv : Byte), s.pos = .i1 →
    (s.cfg.tagReadback = .storage ∧ tv = 0x04 ∧ u = s) ∨ (s.cfg.tagReadback = .draw ∧ tv = s.drawn ∧ u = s.afterDraw) →
    s.wa.lba0 = some l0 → s.wa.lba1 = some l1 → s.wa.lba2 = some l2 → s.wa.lba3 = some l3 → s.wa.mode = some m →
    (m = 1 ∧ trig = 0x40) ∨ ((m = 2 ∨ m = 3) ∧ trig = 0x80) ∨
      (m ≠ 1 ∧ m ≠ 2 ∧ m ≠ 3 ∧ s.cfg.modeOther = .asMode1 ∧ trig = 0x40) →
    exec .build s = .next { u with
      regs := { s.regs with
        opcode := 0x32, cmdStatus := 0x90, issue := 0x01, tag := tv ||| 0x10, lbaR0 := l1
        lbaR1 := l0 ||| ((l3 <<< 2) &&& 0xFC), lbaR2 := (l2 <<< 2) &&& 0xFC, trigger := trig }
      tmp := { s.tmp with t := tv }
      wa := { s.wa with opCounter := some 5 }
      history := s.history ++ [.write s.cfg.addrs.aOpcode 0x32, .write s.cfg.addrs.aCmdStatus 0x90, .write s.cfg.addrs.aIssue 0x01,
        .write s.cfg.addrs.aTag 0x04, .read s.cfg.addrs.aTag tv, .write s.cfg.addrs.aTag (tv ||| 0x10), .write s.cfg.addrs.aLbaR0 l1,
        .write s.cfg.addrs.aLbaR1 (l0 ||| ((l3 <<< 2) &&& 0xFC)), .write s.cfg.addrs.aLbaR2 ((l2 <<< 2) &&& 0xFC),
        .write s.cfg.addrs.aTrigger trig]
      pos := .c1a }

/-! ### Busy and completion monitor -/

/-- BUSYFN: `a[1] | b[0] | a[2] | a[3]`, false only when all four are clear, so the undescribed bits have no influence (R118); delivery in `result`
(log 16). -/
def Obligations.BusyIsTheOrOfFourBits : Prop :=
  ∀ (s : State) (a b : Byte), ∃ bz : Bool,
    exec (.busyFn a b) s = .next { s with result := .bit bz } ∧
    (bz = true ↔ a.getLsbD 1 = true ∨ b.getLsbD 0 = true ∨ a.getLsbD 2 = true ∨ a.getLsbD 3 = true) ∧
    (bz = false ↔ a &&& 0x0E = 0 ∧ b &&& 0x01 = 0)

/-- CLASSIFY refines BUSYFN: Idle iff not busy, ErrorPending iff bit 2 or 3 is set, Busy otherwise, Unknown before any sample (R124, decision D16;
delivery in `result`, log 16). -/
def Obligations.ClassificationRefinesBusy : Prop :=
  (∀ (s : State) (a b : Byte), ∃ x : Taxonomy,
    exec (.classify (some (a, b))) s = .next { s with result := .taxonomy x } ∧
    (x = .idle ↔ busyFn a b = false) ∧
    (x = .errorPending ↔ a.getLsbD 2 = true ∨ a.getLsbD 3 = true) ∧
    (x = .busy ↔ (a.getLsbD 1 = true ∨ b.getLsbD 0 = true) ∧ a.getLsbD 2 = false ∧ a.getLsbD 3 = false)) ∧
  (∀ s : State, exec (.classify none) s = .next { s with result := .taxonomy .unknown })

/-- Steps C1a, C1b and C1c: one read each, of STATUS_A, BUSY_B and STATUS_A, into `a1`, `b` and `a2`, each a draw (R120, R43; decisions D8, D14). -/
def Obligations.CheckReadsInOrder : Prop :=
  ∀ s : State,
    (s.pos = .c1a → exec .stepC1a s = .next { s.afterDraw with
      tmp := { s.tmp with a1 := s.drawn }, history := s.history ++ [.read s.cfg.addrs.aStatusA s.drawn], pos := .c1b }) ∧
    (s.pos = .c1b → exec .stepC1b s = .next { s.afterDraw with
      tmp := { s.tmp with b := s.drawn }, history := s.history ++ [.read s.cfg.addrs.aBusyB s.drawn], pos := .c1c }) ∧
    (s.pos = .c1c → exec .stepC1c s = .next { s.afterDraw with
      tmp := { s.tmp with a2 := s.drawn }, history := s.history ++ [.read s.cfg.addrs.aStatusA s.drawn], pos := .c1d })

/-- Step C1d: the fourth read and the decision: a CHECK_BUSY answers `ok_busy(bz)` and ends, an ISSUE or a WAIT polls again while `bz = 1` and goes
to W2 when it is 0 (R121, R120; decisions D8, D22). The observer's new value is the model's (log 25), and so is what the temporaries hold once a
CHECK_BUSY has ended (log 32). With no operation, which R24 excludes, the
step stops (log 15). -/
def Obligations.CheckDecidesOnFourSamples : Prop :=
  ∀ (s : State) (bz : Bool), s.pos = .c1d →
    (bz = true ↔ s.tmp.a1.getLsbD 1 = true ∨ s.tmp.b.getLsbD 0 = true ∨ s.tmp.a2.getLsbD 2 = true ∨ s.drawn.getLsbD 3 = true) →
    (s.curOp = .checkBusy → exec .stepC1d s = .next { s.afterDraw with
      tmp := { s.tmp with a3 := s.drawn }, history := s.history ++ [.read s.cfg.addrs.aStatusA s.drawn]
      taxonomy := classifyFn (some (observedA s.tmp.a1 s.tmp.a2 s.drawn, s.tmp.b))
      responses := s.responses ++ [.okBusy bz], curOp := .none, pos := .idle }) ∧
    (s.curOp = .issue ∨ s.curOp = .wait → exec .stepC1d s = .next { s.afterDraw with
      tmp := { s.tmp with a3 := s.drawn }, history := s.history ++ [.read s.cfg.addrs.aStatusA s.drawn]
      taxonomy := classifyFn (some (observedA s.tmp.a1 s.tmp.a2 s.drawn, s.tmp.b))
      pos := if bz then .c1a else .w2 }) ∧
    (s.curOp = .none → exec .stepC1d s = .fault .noOperation)

/-- A standalone CHECK_BUSY, requested in any state in which the block is ready, is never refused, ends with a boolean answer, and changes no
work-area field, no register and no latch (R122, R123). -/
def Obligations.StandaloneCheckBusyChangesOnlyTemporaries : Prop :=
  ∀ s : State, s.resetIn = false → s.pos = .idle → ∃ (u t : State) (n : Nat) (bz : Bool),
    exec .checkBusy s = .next u ∧ u.responses = s.responses ∧ runSteps n u = .next t ∧
    t.pos = .idle ∧ t.curOp = .none ∧ t.responses = s.responses ++ [.okBusy bz] ∧
    t.wa = s.wa ∧ t.regs = s.regs ∧ t.saHi = s.saHi ∧ t.saLo = s.saLo ∧ t.saSet = s.saSet ∧ t.cfg = s.cfg ∧ t.port = s.port

/-- Steps W3a and W3b: BUSY_B is read into `r` as a draw and written back with bit 0 set and bits 7:1 as read (R126, R127; decision D25). -/
def Obligations.PulseSetsBitZeroOnly : Prop :=
  ∀ s : State,
    (s.pos = .w3a → exec .stepW3a s = .next { s.afterDraw with
      tmp := { s.tmp with r := s.drawn }, history := s.history ++ [.read s.cfg.addrs.aBusyB s.drawn], pos := .w3b }) ∧
    (s.pos = .w3b → ∃ v : Byte, v.getLsbD 0 = true ∧ v.extractLsb' 1 7 = s.tmp.r.extractLsb' 1 7 ∧
      exec .stepW3b s = .next { s with
        regs := { s.regs with busyB := v }, history := s.history ++ [.write s.cfg.addrs.aBusyB v], pos := .w4 })

/-- Step W2: CONTROL receives `WA.cmd_status` unchanged (R125). Step W4: one read of BUSY_B into `p`; the position stays while bit 0 reads 1 and
advances when it reads 0 (R128). Steps W5, W6 and W7: the command state advances modulo 8, the slot index becomes 0, and success is answered
at IDLE (R129, R130, R131). W4's read is a draw by the spec's decision D14; that the temporaries stand at IDLE as last written, which the clause of W7
says by leaving them unchanged, is the model's choice (log 32). -/
def Obligations.WaitStepsFromControlToSuccess : Prop :=
  ∀ s : State,
    (∀ st : Byte, s.pos = .w2 → s.wa.cmdStatus = some st → exec .stepW2 s = .next { s with
      regs := { s.regs with control := st }, history := s.history ++ [.write s.cfg.addrs.aControl st], pos := .w3a }) ∧
    (s.pos = .w4 → exec .stepW4 s = .next { s.afterDraw with
      tmp := { s.tmp with p := s.drawn }, history := s.history ++ [.read s.cfg.addrs.aBusyB s.drawn],
      pos := if s.drawn.getLsbD 0 = true then .w4 else .w5 }) ∧
    (s.pos = .w5 → ∃ k : BitVec 3, k.toNat = (s.wa.cmdState.toNat + 1) % 8 ∧
      exec .stepW5 s = .next { s with wa := { s.wa with cmdState := k }, pos := .w6 }) ∧
    (s.pos = .w6 → exec .stepW6 s = .next { s with wa := { s.wa with slotIndex := 0 }, pos := .w7 }) ∧
    (s.pos = .w7 → exec .stepW7 s = .next { s with responses := s.responses ++ [.ok], curOp := .none, pos := .idle })

/-- WAIT_COMPLETION from its first position: when the check reports idle and the first pulse poll reads bit 0 clear it ends, with the eight
transactions of R132 (decisions D8, D25); an idle check followed by a set pulse bit leaves it at W4, with CONTROL written and BUSY_B pulsed; a busy
check, and a set pulse bit at W4, turn the poll back (R132, R139; performed up to there at once, log 20). The observer's value is the model's where
the three samples of STATUS_A differ (log 25), and so is what the temporaries hold at IDLE (log 32). -/
def Obligations.WaitCompletionRunsToItsEndOrATurn : Prop :=
  ∀ s : State, s.curOp = .issue ∨ s.curOp = .wait →
    (∀ (a1 b a2 a3 r p st : Byte) (rest : List Byte), s.pos = .c1a → s.env = [a1, b, a2, a3, r, p] ++ rest →
      s.wa.cmdStatus = some st → busyOfSamples a1 b a2 a3 = false → p.getLsbD 0 = false →
      exec .waitCompletion s = .next { s with
        env := rest
        tmp := { s.tmp with a1 := a1, b := b, a2 := a2, a3 := a3, r := r, p := p }
        taxonomy := .idle
        regs := { s.regs with control := st, busyB := (r &&& 0xFE) ||| 0x01 }
        wa := { s.wa with cmdState := s.wa.cmdState + 1, slotIndex := 0 }
        history := s.history ++ [.read s.cfg.addrs.aStatusA a1, .read s.cfg.addrs.aBusyB b, .read s.cfg.addrs.aStatusA a2,
          .read s.cfg.addrs.aStatusA a3, .write s.cfg.addrs.aControl st, .read s.cfg.addrs.aBusyB r,
          .write s.cfg.addrs.aBusyB ((r &&& 0xFE) ||| 0x01), .read s.cfg.addrs.aBusyB p]
        responses := s.responses ++ [.ok]
        curOp := .none
        pos := .idle }) ∧
    (∀ (a1 b a2 a3 r p st : Byte) (rest : List Byte), s.pos = .c1a → s.env = [a1, b, a2, a3, r, p] ++ rest →
      s.wa.cmdStatus = some st → busyOfSamples a1 b a2 a3 = false → p.getLsbD 0 = true →
      exec .waitCompletion s = .next { s with
        env := rest
        tmp := { s.tmp with a1 := a1, b := b, a2 := a2, a3 := a3, r := r, p := p }
        taxonomy := .idle
        regs := { s.regs with control := st, busyB := (r &&& 0xFE) ||| 0x01 }
        history := s.history ++ [.read s.cfg.addrs.aStatusA a1, .read s.cfg.addrs.aBusyB b, .read s.cfg.addrs.aStatusA a2,
          .read s.cfg.addrs.aStatusA a3, .write s.cfg.addrs.aControl st, .read s.cfg.addrs.aBusyB r,
          .write s.cfg.addrs.aBusyB ((r &&& 0xFE) ||| 0x01), .read s.cfg.addrs.aBusyB p]
        pos := .w4 }) ∧
    (∀ (a1 b a2 a3 : Byte) (rest : List Byte), s.pos = .c1a → s.env = [a1, b, a2, a3] ++ rest → busyOfSamples a1 b a2 a3 = true →
      exec .waitCompletion s = .next { s with
        env := rest
        tmp := { s.tmp with a1 := a1, b := b, a2 := a2, a3 := a3 }
        taxonomy := classifyFn (some (observedA a1 a2 a3, b))
        history := s.history ++ [.read s.cfg.addrs.aStatusA a1, .read s.cfg.addrs.aBusyB b, .read s.cfg.addrs.aStatusA a2,
          .read s.cfg.addrs.aStatusA a3] }) ∧
    (∀ (p : Byte) (rest : List Byte), s.pos = .w4 → s.env = p :: rest → p.getLsbD 0 = true →
      exec .waitCompletion s = .next { s with
        env := rest, tmp := { s.tmp with p := p }, history := s.history ++ [.read s.cfg.addrs.aBusyB p] })

/-! ### Slot and state tracker -/

/-- SLOTADDR: `0xE442 + slot * 32` at 16 bits for every slot, within [0xE442, 0xE522] (R133); delivery in `result` (log 16). -/
def Obligations.SlotAddressIsBasePlusStride : Prop :=
  ∀ (s : State) (slot : BitVec 3), ∃ x : Address,
    exec (.slotAddr slot) s = .next { s with result := .addr x } ∧
    x.toNat = 0xE442 + slot.toNat * 32 ∧ 0xE442 ≤ x.toNat ∧ x.toNat ≤ 0xE522

/-- The slot address has the fixed shape of R82, the window decode of R59 inverts it with any offset, and the byte `k` of the latched window is
`{SA_HI, SA_LO} + k` (R135): all derived by the spec from R133. -/
def Obligations.WindowDecodeInvertsTheSlotAddress : Prop :=
  ∀ (slot : BitVec 3) (k : BitVec 5),
    (slotAddr slot).extractLsb' 0 5 = 0b00010#5 ∧
    (slotAddr slot).extractLsb' 5 3 = slot + 2 ∧
    (slotAddr slot).extractLsb' 8 8 = (if slot.toNat ≤ 5 then 0xE4 else 0xE5) ∧
    windowByteAddr (addrHi (slotAddr slot)) (addrLo (slotAddr slot)) k = slotAddr slot + k.setWidth 16 ∧
    inWindows (slotAddr slot + k.setWidth 16) = true ∧
    windowSlot (slotAddr slot + k.setWidth 16) = slot ∧
    windowOffset (slotAddr slot + k.setWidth 16) = k

/-- STATE_ADVANCE, SLOT_RESET and OPCNT_SET: the command state plus one modulo 8, the slot index 0, the operation counter 5, and nothing else
changed (R136, R137, R142). Those rules say "performed at" W5, W6 and I9; that each takes effect performed alone at any position, and leaves the
position, is the model's choice (log 34). -/
def Obligations.CounterOperations : Prop :=
  ∀ s : State,
    (∃ k : BitVec 3, k.toNat = (s.wa.cmdState.toNat + 1) % 8 ∧
      exec .stateAdvance s = .next { s with wa := { s.wa with cmdState := k } }) ∧
    exec .slotReset s = .next { s with wa := { s.wa with slotIndex := 0 } } ∧
    exec .opcntSet s = .next { s with wa := { s.wa with opCounter := some 5 } }

/-- PHASE delivers the phase of R27's table, for every position and every operation that can be there (R27, R138; decision D12; delivery in
`result`, log 16). -/
def Obligations.PhaseFollowsThePosition : Prop :=
  ∀ s : State, sequencerFits s → ∃ x : Phase, exec .phase s = .next { s with result := .phase x } ∧
    (x = .idle ↔ s.pos = .idle ∨ s.curOp = .checkBusy) ∧
    (x = .building ↔ s.pos ∈ [Pos.i1, .i2, .i3, .i4a, .i4b, .i4c, .i5, .i6, .i7, .i8]) ∧
    (x = .triggered ↔ s.pos = .i9) ∧
    (x = .waiting ↔ s.pos ∈ [Pos.c1a, .c1b, .c1c, .c1d, .w2, .w3a, .w3b, .w4, .w5, .w6] ∧ (s.curOp = .issue ∨ s.curOp = .wait)) ∧
    (x = .complete ↔ s.pos = .w7)

/-- Every step moves the phase along the table of R138, and no phase is skipped or entered from outside it (R138, R139; decision D12). -/
def Obligations.PhasesFollowTheTable : Prop :=
  ∀ s t : State, sequencerFits s → s.resetIn = false → step s = .next t → phaseMoves s.phase t.phase = true

/-! ### The whole machine -/

/-- The invariant holds right after reset (R45, R143). -/
def Obligations.InvariantHoldsAtReset : Prop := Consistent State.reset

/-- Every step keeps the invariant, from every state that has it (R45, R143, R155, R63). -/
def Obligations.EveryStepKeepsTheInvariant : Prop :=
  ∀ s t : State, Consistent s → step s = .next t → Consistent t

/-- From a state with the invariant the machine never stops, but for an image on the model's bench that is no descriptor (log 2): the block raises
no exception, no access fails, and every step of an accepted operation can be performed (R156, R157, R158, R52). -/
def Obligations.NoStopUnderTheInvariant : Prop :=
  ∀ s : State, Consistent s →
    (∀ w : Image, s.bench = some (.image w) → ∃ i, decode (.image w) = .ok i) →
    ∃ t, step s = .next t

/-- Every transaction of the sequencer is one of the access matrix, at its position, one per step, and is the bus word the position drives: in
particular no operation writes STATUS_A, a slot window or an unmapped address (R41, R86; claim 5 of 95_test_vectors.md). SEQ is the only master: at
IDLE, whatever HOST presents, no register changes and no transaction is made, the model's bench being empty (R98, decision D3), as it is after reset
and, once empty, after every step (log 2). -/
def Obligations.TransactionsStayInTheAccessMatrix : Prop :=
  (∀ s t : State, s.pos = .idle → s.bench = none → step s = .next t → t.regs = s.regs ∧ t.history = s.history) ∧
  State.reset.bench = none ∧
  (∀ s t : State, s.bench = none → step s = .next t → t.bench = none) ∧
  ∀ s t : State, s.resetIn = false → s.pos ≠ .idle → step s = .next t →
    (matrixReads s.pos = none ∧ matrixWrites s.pos = none ∧ busWordAt s = none ∧ t.history = s.history ∧ t.regs = s.regs) ∨
    (∃ (r : Reg) (v : Byte), matrixReads s.pos = some r ∧ t.history = s.history ++ [.read (s.cfg.addrs.addrOf r) v] ∧
      busWordAt s = some (eventWord (.read (s.cfg.addrs.addrOf r) v)) ∧ t.regs = s.regs) ∨
    (∃ (r : Reg) (v : Byte), matrixWrites s.pos = some r ∧ t.history = s.history ++ [.write (s.cfg.addrs.addrOf r) v] ∧
      busWordAt s = some (eventWord (.write (s.cfg.addrs.addrOf r) v)))

/-- The parameters of the machine never change, the history and the responses only grow, at most one response at a time, and an operation without
a transaction leaves every engine register as it was (R7, R98, R144, R94). -/
def Obligations.HistoryAndResponsesOnlyGrow : Prop :=
  ∀ (i : Instr) (s t : State), exec i s = .next t →
    t.cfg = s.cfg ∧
    (∃ es, t.history = s.history ++ es ∧ (es = [] → t.regs = s.regs)) ∧
    (∃ rs, t.responses = s.responses ++ rs ∧ rs.length ≤ 1)

/-- Which operations write which work-area field: the command state only W5, STATE_ADVANCE and the wait that holds W5; the slot index only W6,
SLOT_RESET and that wait; the operation counter only I9, OPCNT_SET and BUILD; every field also HOST by WA_WRITE of its code, and the other eight
fields HOST alone (R14 to R20, R136, R137, R142). That STATE_ADVANCE, SLOT_RESET and OPCNT_SET performed alone write them at any position is the
model's choice (log 34). -/
def Obligations.FieldsAreWrittenOnlyByTheirOperations : Prop :=
  ∀ (i : Instr) (s t : State), exec i s = .next t →
    (t.wa.slotIndex ≠ s.wa.slotIndex → i = .stepW6 ∨ i = .slotReset ∨ i = .waitCompletion ∨ ∃ d, i = .waWrite 0 d) ∧
    (t.wa.opCounter ≠ s.wa.opCounter → i = .stepI9 ∨ i = .opcntSet ∨ i = .build ∨ ∃ d, i = .waWrite 1 d) ∧
    (t.wa.cmdState ≠ s.wa.cmdState → i = .stepW5 ∨ i = .stateAdvance ∨ i = .waitCompletion ∨ ∃ d, i = .waWrite 2 d) ∧
    (t.wa.cmdStatus ≠ s.wa.cmdStatus → ∃ d, i = .waWrite 3 d) ∧
    (t.wa.mode ≠ s.wa.mode → ∃ d, i = .waWrite 4 d) ∧
    (t.wa.param0 ≠ s.wa.param0 → ∃ d, i = .waWrite 5 d) ∧
    (t.wa.param1 ≠ s.wa.param1 → ∃ d, i = .waWrite 6 d) ∧
    (t.wa.lba0 ≠ s.wa.lba0 → ∃ d, i = .waWrite 7 d) ∧
    (t.wa.lba1 ≠ s.wa.lba1 → ∃ d, i = .waWrite 8 d) ∧
    (t.wa.lba2 ≠ s.wa.lba2 → ∃ d, i = .waWrite 9 d) ∧
    (t.wa.lba3 ≠ s.wa.lba3 → ∃ d, i = .waWrite 10 d)

/-- The slot address latch is written only by SLOT_ADDRESS. The parameter bytes, the latch, the operation counter and the slot index influence no
sequencer step: with them changed the step does the same, but for those very values, where I9 and W6 write theirs in either case (R19, R22,
R141, R142, R15). -/
def Obligations.UnreadStateNeverMatters : Prop :=
  (∀ (i : Instr) (s t : State), exec i s = .next t → t.saHi ≠ s.saHi ∨ t.saLo ≠ s.saLo ∨ t.saSet ≠ s.saSet → i = .slotAddress) ∧
  (∀ (s t : State) (x y : Option Byte) (hi lo : Byte) (b : Bool), s.resetIn = false → s.pos ≠ .idle → step s = .next t →
    step { s with wa := { s.wa with param0 := x, param1 := y }, saHi := hi, saLo := lo, saSet := b } =
      .next { t with wa := { t.wa with param0 := x, param1 := y }, saHi := hi, saLo := lo, saSet := b }) ∧
  (∀ (s t : State) (z : Option Byte) (k : BitVec 3), s.resetIn = false → s.pos ≠ .idle → step s = .next t →
    step { s with wa := { s.wa with opCounter := z, slotIndex := k } } =
      .next { t with wa := { t.wa with
        opCounter := if s.pos = .i9 then t.wa.opCounter else z, slotIndex := if s.pos = .w6 then t.wa.slotIndex else k } })

/-- Modes 2 and 3 cannot be told apart in anything the block does during an operation: the same step, but for the stored mode itself (R193). -/
def Obligations.ModesTwoAndThreeAreAlike : Prop :=
  ∀ s t : State, s.resetIn = false → s.pos ≠ .idle → s.wa.mode = some 2 → step s = .next t →
    step { s with wa := { s.wa with mode := some 3 } } = .next { t with wa := { t.wa with mode := some 3 } }

/-- An accepted request is answered exactly when the block becomes ready again: a step of an operation adds one response if it ends at IDLE and
none otherwise; CHECK_BUSY answers `ok_busy`, ISSUE and WAIT answer `ok` and nothing else (R144, R87, R131, R158; decision D2). -/
def Obligations.OneAnswerPerAcceptedRequest : Prop :=
  ∀ s t : State, Consistent s → s.resetIn = false → s.pos ≠ .idle → step s = .next t →
    (t.pos ≠ .idle → t.responses = s.responses ∧ t.curOp = s.curOp) ∧
    (t.pos = .idle → t.curOp = .none ∧
      ((s.curOp = .checkBusy ∧ ∃ bz, t.responses = s.responses ++ [.okBusy bz]) ∨
       (s.curOp ≠ .checkBusy ∧ s.pos = .w7 ∧ t.responses = s.responses ++ [.ok])))

/-- The net effect of an ISSUE whose first check is idle and whose first pulse poll reads clear, presented at IDLE: after 23 steps the registers, the
work area, the history of eighteen transactions and the response of R148, and everything else unchanged (R148, R115, R132; decisions D8, D10, D25); so
also with `MODE_OTHER = as_mode1` (decision D7) and with `TAG_READBACK = draw`, where the byte `tv` is read from TAG in place of 0x04 (decision D9);
that `tv` stands in the one list before the bytes of STATUS_A and BUSY_B is the model's choice (log 36). The port and the environment are the model's
(log 23, log 3), and so are the observer's value where the samples differ (log 25) and what the temporaries hold at IDLE (log 32). -/
def Obligations.IssueNetEffect : Prop :=
  ∀ (s : State) (q : List ReqWord) (low : BitVec 12) (l0 l1 l2 l3 m st trig tv a1 b a2 a3 r p : Byte) (tagRead rest : List Byte),
    s.resetIn = false → s.pos = .idle → s.bench = none → s.port = (1#4 ++ low) :: q →
    (s.cfg.tagReadback = .storage ∧ tv = 0x04 ∧ tagRead = []) ∨ (s.cfg.tagReadback = .draw ∧ tagRead = [tv]) →
    s.wa.lba0 = some l0 → s.wa.lba1 = some l1 → s.wa.lba2 = some l2 → s.wa.lba3 = some l3 →
    s.wa.mode = some m → s.wa.cmdStatus = some st →
    (m = 1 ∧ trig = 0x40) ∨ ((m = 2 ∨ m = 3) ∧ trig = 0x80) ∨
      (m ≠ 1 ∧ m ≠ 2 ∧ m ≠ 3 ∧ s.cfg.modeOther = .asMode1 ∧ trig = 0x40) →
    s.env = tagRead ++ [a1, b, a2, a3, r, p] ++ rest → busyOfSamples a1 b a2 a3 = false → p.getLsbD 0 = false →
    runSteps 23 s = .next { s with
      port := q
      env := rest
      pos := .idle
      curOp := .none
      tmp := { t := tv, a1 := a1, b := b, a2 := a2, a3 := a3, r := r, p := p }
      taxonomy := .idle
      regs := { opcode := 0x32, cmdStatus := 0x90, issue := 0x01, tag := tv ||| 0x10, lbaR0 := l1
                lbaR1 := l0 ||| ((l3 <<< 2) &&& 0xFC), lbaR2 := (l2 <<< 2) &&& 0xFC, trigger := trig
                control := st, busyB := (r &&& 0xFE) ||| 0x01 }
      wa := { s.wa with opCounter := some 5, cmdState := s.wa.cmdState + 1, slotIndex := 0 }
      history := s.history ++ [.write s.cfg.addrs.aOpcode 0x32, .write s.cfg.addrs.aCmdStatus 0x90, .write s.cfg.addrs.aIssue 0x01,
        .write s.cfg.addrs.aTag 0x04, .read s.cfg.addrs.aTag tv, .write s.cfg.addrs.aTag (tv ||| 0x10), .write s.cfg.addrs.aLbaR0 l1,
        .write s.cfg.addrs.aLbaR1 (l0 ||| ((l3 <<< 2) &&& 0xFC)), .write s.cfg.addrs.aLbaR2 ((l2 <<< 2) &&& 0xFC),
        .write s.cfg.addrs.aTrigger trig, .read s.cfg.addrs.aStatusA a1, .read s.cfg.addrs.aBusyB b, .read s.cfg.addrs.aStatusA a2,
        .read s.cfg.addrs.aStatusA a3, .write s.cfg.addrs.aControl st, .read s.cfg.addrs.aBusyB r,
        .write s.cfg.addrs.aBusyB ((r &&& 0xFE) ||| 0x01), .read s.cfg.addrs.aBusyB p]
      responses := s.responses ++ [.ok] }

/-- The wait ends however many busy checks and set pulse polls come first, and the work area and the registers are then those of R132: the command
state one more modulo 8, the slot index 0, CONTROL the status, BUSY_B pulsed (R132, R187; decisions D8, D25). -/
def Obligations.WaitEndsAfterAnyNumberOfPolls : Prop :=
  ∀ (s : State) (checks : List (Byte × Byte × Byte × Byte)) (polls rest : List Byte) (a1 b a2 a3 r p st : Byte),
    s.resetIn = false → s.pos = .c1a → s.curOp = .issue ∨ s.curOp = .wait → s.wa.cmdStatus = some st →
    (∀ c ∈ checks, busyOfSamples c.1 c.2.1 c.2.2.1 c.2.2.2 = true) → busyOfSamples a1 b a2 a3 = false →
    (∀ x ∈ polls, x.getLsbD 0 = true) → p.getLsbD 0 = false →
    s.env = checks.flatMap (fun c => [c.1, c.2.1, c.2.2.1, c.2.2.2]) ++ [a1, b, a2, a3, r] ++ polls ++ [p] ++ rest →
    ∃ t, runSteps (4 * checks.length + polls.length + 11) s = .next t ∧
      t.pos = .idle ∧ t.curOp = .none ∧ t.env = rest ∧ t.port = s.port ∧ t.cfg = s.cfg ∧
      t.wa = { s.wa with cmdState := s.wa.cmdState + 1, slotIndex := 0 } ∧
      t.regs = { s.regs with control := st, busyB := (r &&& 0xFE) ||| 0x01 } ∧
      t.responses = s.responses ++ [.ok] ∧
      t.history = s.history ++
        checks.flatMap (fun c => [.read s.cfg.addrs.aStatusA c.1, .read s.cfg.addrs.aBusyB c.2.1,
          .read s.cfg.addrs.aStatusA c.2.2.1, .read s.cfg.addrs.aStatusA c.2.2.2]) ++
        [.read s.cfg.addrs.aStatusA a1, .read s.cfg.addrs.aBusyB b, .read s.cfg.addrs.aStatusA a2, .read s.cfg.addrs.aStatusA a3,
          .write s.cfg.addrs.aControl st, .read s.cfg.addrs.aBusyB r, .write s.cfg.addrs.aBusyB ((r &&& 0xFE) ||| 0x01)] ++
        polls.map (fun x => .read s.cfg.addrs.aBusyB x) ++ [.read s.cfg.addrs.aBusyB p]

/-- The hang: however long, a run of busy checks keeps the check loop turning and a run of set pulse bits keeps W4 turning, with no response, the
work area as it was and nothing written: no register has changed and the history has grown by the reads of the polls alone; so no bound on the
length of a wait exists (R160, R191; decision D15; claim 6 of 95_test_vectors.md). -/
def Obligations.PollsCanTurnForEver : Prop :=
  (∀ (s : State) (checks : List (Byte × Byte × Byte × Byte)) (rest : List Byte), s.resetIn = false → s.pos = .c1a →
    s.curOp = .issue ∨ s.curOp = .wait → (∀ c ∈ checks, busyOfSamples c.1 c.2.1 c.2.2.1 c.2.2.2 = true) →
    s.env = checks.flatMap (fun c => [c.1, c.2.1, c.2.2.1, c.2.2.2]) ++ rest →
    ∃ t, runSteps (4 * checks.length) s = .next t ∧ t.pos = .c1a ∧ t.curOp = s.curOp ∧ t.env = rest ∧ t.wa = s.wa ∧
      t.regs = s.regs ∧ t.responses = s.responses ∧ t.ready = false ∧
      t.history = s.history ++
        checks.flatMap (fun c => [.read s.cfg.addrs.aStatusA c.1, .read s.cfg.addrs.aBusyB c.2.1,
          .read s.cfg.addrs.aStatusA c.2.2.1, .read s.cfg.addrs.aStatusA c.2.2.2])) ∧
  (∀ (s : State) (polls rest : List Byte), s.resetIn = false → s.pos = .w4 → (∀ x ∈ polls, x.getLsbD 0 = true) →
    s.env = polls ++ rest →
    ∃ t, runSteps polls.length s = .next t ∧ t.pos = .w4 ∧ t.curOp = s.curOp ∧ t.env = rest ∧ t.wa = s.wa ∧
      t.regs = s.regs ∧ t.responses = s.responses ∧ t.ready = false ∧
      t.history = s.history ++ polls.map (fun x => .read s.cfg.addrs.aBusyB x))
end

