-- ==== Sys2Proof/Laws/Decode.lean ====
section
/-! SUPPORT. The fields of a word put together are the fields it was put together from, and which images the two DESC64 rows match. -/

namespace Sys2Proof

@[simp] theorem reqOpSel_mkReq (op field : BitVec 4) (data : Byte) : reqOpSel (mkReq op field data) = op := by
  ext i hi
  simp only [reqOpSel, mkReq, BitVec.getElem_extractLsb', BitVec.getLsbD_append]
  simp [show ¬ (12 + i < 8) by omega, show ¬ (12 + i - 8 < 4) by omega, show 12 + i - 8 - 4 = i by omega, hi]

@[simp] theorem reqField_mkReq (op field : BitVec 4) (data : Byte) : reqField (mkReq op field data) = field := by
  ext i hi
  simp only [reqField, mkReq, BitVec.getElem_extractLsb', BitVec.getLsbD_append]
  simp [show ¬ (8 + i < 8) by omega, show 8 + i - 8 = i by omega, hi]

@[simp] theorem reqData_mkReq (op field : BitVec 4) (data : Byte) : reqData (mkReq op field data) = data := by
  ext i hi
  simp only [reqData, mkReq, BitVec.getElem_extractLsb', BitVec.getLsbD_append]
  simp [hi]

@[simp] theorem busWe_mkBus (we : Bool) (addr : Address) (v : Byte) : busWe (mkBus we addr v) = we := by
  simp only [busWe, mkBus, BitVec.getLsbD_append]
  cases we <;> rfl

@[simp] theorem busAddr_mkBus (we : Bool) (addr : Address) (v : Byte) : busAddr (mkBus we addr v) = addr := by
  ext i hi
  simp only [busAddr, mkBus, BitVec.getElem_extractLsb', BitVec.getLsbD_append]
  simp [show ¬ (8 + i < 8) by omega, show 8 + i - 8 = i by omega, hi]

@[simp] theorem busData_mkBus (we : Bool) (addr : Address) (v : Byte) : busData (mkBus we addr v) = v := by
  ext i hi
  simp only [busData, mkBus, BitVec.getElem_extractLsb', BitVec.getLsbD_append]
  simp [hi]

/-- The mask of the DESC64 rows, byte by byte (R69). -/
theorem imageMask_eq : imageMask = mkImage 0xFF 0xFF 0xFF 0xFF 0 0 0x03 0xFF := by decide

/-- Masking an image byte by byte. -/
theorem mkImage_and (o s i t b c d r o' s' i' t' b' c' d' r' : Byte) :
    mkImage o s i t b c d r &&& mkImage o' s' i' t' b' c' d' r' =
      mkImage (o &&& o') (s &&& s') (i &&& i') (t &&& t') (b &&& b') (c &&& c') (d &&& d') (r &&& r') := by
  unfold mkImage
  erw [BitVec.and_append, BitVec.and_append, BitVec.and_append, BitVec.and_append, BitVec.and_append, BitVec.and_append,
    BitVec.and_append]

/-- An LBA_R2 byte is admitted exactly when masking its two low bits leaves nothing (R76). -/
theorem lbaR2ByteOk_iff (d : Byte) : lbaR2ByteOk d = true ↔ d &&& 0x03 = 0 := by
  revert d; decide

/-- The masked image of an admitted descriptor. -/
theorem mkImage_masked (t b c d r : Byte) (hd : lbaR2ByteOk d = true) :
    mkImage 0x32 0x90 0x01 t b c d r &&& imageMask = mkImage 0x32 0x90 0x01 t 0 0 0 r := by
  have h := (lbaR2ByteOk_iff d).1 hd
  rw [imageMask_eq, mkImage_and, h]
  have hFF : ∀ x : Byte, x &&& 0xFF = x := by decide
  have h0 : ∀ x : Byte, x &&& 0 = 0 := by decide
  rw [hFF t, hFF r, h0 b, h0 c]
  rfl

/-- The masked image of mode 1 is its row's match, and the masked image of modes 2 and 3 is theirs (R69). -/
theorem masked_M1 : mkImage 0x32 0x90 0x01 0x14 0 0 0 0x40 = imageMatchM1 := by decide

theorem masked_M23 : mkImage 0x32 0x90 0x01 0x14 0 0 0 0x80 = imageMatchM23 := by decide

theorem imageMatch_ne : imageMatchM23 ≠ imageMatchM1 := by decide

@[simp] theorem imageB_mkImage (o s i t b c d r : Byte) : imageB (mkImage o s i t b c d r) = b := by
  ext k hk
  simp only [imageB, mkImage, BitVec.getElem_extractLsb', BitVec.getLsbD_append]
  simp [show ¬ (24 + k < 8) by omega, show ¬ (24 + k - 8 < 8) by omega, show ¬ (24 + k - 8 - 8 < 8) by omega,
    show 24 + k - 8 - 8 - 8 = k by omega, hk]

@[simp] theorem imageC_mkImage (o s i t b c d r : Byte) : imageC (mkImage o s i t b c d r) = c := by
  ext k hk
  simp only [imageC, mkImage, BitVec.getElem_extractLsb', BitVec.getLsbD_append]
  simp [show ¬ (16 + k < 8) by omega, show ¬ (16 + k - 8 < 8) by omega, show 16 + k - 8 - 8 = k by omega, hk]

@[simp] theorem imageD_mkImage (o s i t b c d r : Byte) : imageD (mkImage o s i t b c d r) = d := by
  ext k hk
  simp only [imageD, mkImage, BitVec.getElem_extractLsb', BitVec.getLsbD_append]
  simp [show ¬ (8 + k < 8) by omega, show 8 + k - 8 = k by omega, hk]

end Sys2Proof
end

