-- ==== Sys2Proof/Laws/State.lean ====
section
/-! SUPPORT. What each update of the state does to each field: one lemma per field per update. -/

namespace Sys2Proof.Machine

/-! ### State.goto -/

@[simp] theorem State.goto_cfg (s : State) (p : Pos) : (s.goto p).cfg = s.cfg := rfl
@[simp] theorem State.goto_wa (s : State) (p : Pos) : (s.goto p).wa = s.wa := rfl
@[simp] theorem State.goto_saHi (s : State) (p : Pos) : (s.goto p).saHi = s.saHi := rfl
@[simp] theorem State.goto_saLo (s : State) (p : Pos) : (s.goto p).saLo = s.saLo := rfl
@[simp] theorem State.goto_saSet (s : State) (p : Pos) : (s.goto p).saSet = s.saSet := rfl
@[simp] theorem State.goto_pos (s : State) (p : Pos) : (s.goto p).pos = p := rfl
@[simp] theorem State.goto_curOp (s : State) (p : Pos) : (s.goto p).curOp = s.curOp := rfl
@[simp] theorem State.goto_tmp (s : State) (p : Pos) : (s.goto p).tmp = s.tmp := rfl
@[simp] theorem State.goto_taxonomy (s : State) (p : Pos) : (s.goto p).taxonomy = s.taxonomy := rfl
@[simp] theorem State.goto_regs (s : State) (p : Pos) : (s.goto p).regs = s.regs := rfl
@[simp] theorem State.goto_history (s : State) (p : Pos) : (s.goto p).history = s.history := rfl
@[simp] theorem State.goto_responses (s : State) (p : Pos) : (s.goto p).responses = s.responses := rfl
@[simp] theorem State.goto_port (s : State) (p : Pos) : (s.goto p).port = s.port := rfl
@[simp] theorem State.goto_bench (s : State) (p : Pos) : (s.goto p).bench = s.bench := rfl
@[simp] theorem State.goto_resetIn (s : State) (p : Pos) : (s.goto p).resetIn = s.resetIn := rfl
@[simp] theorem State.goto_env (s : State) (p : Pos) : (s.goto p).env = s.env := rfl
@[simp] theorem State.goto_draws (s : State) (p : Pos) : (s.goto p).draws = s.draws := rfl
@[simp] theorem State.goto_result (s : State) (p : Pos) : (s.goto p).result = s.result := rfl

/-! ### State.setOp -/

@[simp] theorem State.setOp_cfg (s : State) (op : CurOp) : (s.setOp op).cfg = s.cfg := rfl
@[simp] theorem State.setOp_wa (s : State) (op : CurOp) : (s.setOp op).wa = s.wa := rfl
@[simp] theorem State.setOp_saHi (s : State) (op : CurOp) : (s.setOp op).saHi = s.saHi := rfl
@[simp] theorem State.setOp_saLo (s : State) (op : CurOp) : (s.setOp op).saLo = s.saLo := rfl
@[simp] theorem State.setOp_saSet (s : State) (op : CurOp) : (s.setOp op).saSet = s.saSet := rfl
@[simp] theorem State.setOp_pos (s : State) (op : CurOp) : (s.setOp op).pos = s.pos := rfl
@[simp] theorem State.setOp_curOp (s : State) (op : CurOp) : (s.setOp op).curOp = op := rfl
@[simp] theorem State.setOp_tmp (s : State) (op : CurOp) : (s.setOp op).tmp = s.tmp := rfl
@[simp] theorem State.setOp_taxonomy (s : State) (op : CurOp) : (s.setOp op).taxonomy = s.taxonomy := rfl
@[simp] theorem State.setOp_regs (s : State) (op : CurOp) : (s.setOp op).regs = s.regs := rfl
@[simp] theorem State.setOp_history (s : State) (op : CurOp) : (s.setOp op).history = s.history := rfl
@[simp] theorem State.setOp_responses (s : State) (op : CurOp) : (s.setOp op).responses = s.responses := rfl
@[simp] theorem State.setOp_port (s : State) (op : CurOp) : (s.setOp op).port = s.port := rfl
@[simp] theorem State.setOp_bench (s : State) (op : CurOp) : (s.setOp op).bench = s.bench := rfl
@[simp] theorem State.setOp_resetIn (s : State) (op : CurOp) : (s.setOp op).resetIn = s.resetIn := rfl
@[simp] theorem State.setOp_env (s : State) (op : CurOp) : (s.setOp op).env = s.env := rfl
@[simp] theorem State.setOp_draws (s : State) (op : CurOp) : (s.setOp op).draws = s.draws := rfl
@[simp] theorem State.setOp_result (s : State) (op : CurOp) : (s.setOp op).result = s.result := rfl

/-! ### State.setWa -/

@[simp] theorem State.setWa_cfg (s : State) (w : WorkArea) : (s.setWa w).cfg = s.cfg := rfl
@[simp] theorem State.setWa_wa (s : State) (w : WorkArea) : (s.setWa w).wa = w := rfl
@[simp] theorem State.setWa_saHi (s : State) (w : WorkArea) : (s.setWa w).saHi = s.saHi := rfl
@[simp] theorem State.setWa_saLo (s : State) (w : WorkArea) : (s.setWa w).saLo = s.saLo := rfl
@[simp] theorem State.setWa_saSet (s : State) (w : WorkArea) : (s.setWa w).saSet = s.saSet := rfl
@[simp] theorem State.setWa_pos (s : State) (w : WorkArea) : (s.setWa w).pos = s.pos := rfl
@[simp] theorem State.setWa_curOp (s : State) (w : WorkArea) : (s.setWa w).curOp = s.curOp := rfl
@[simp] theorem State.setWa_tmp (s : State) (w : WorkArea) : (s.setWa w).tmp = s.tmp := rfl
@[simp] theorem State.setWa_taxonomy (s : State) (w : WorkArea) : (s.setWa w).taxonomy = s.taxonomy := rfl
@[simp] theorem State.setWa_regs (s : State) (w : WorkArea) : (s.setWa w).regs = s.regs := rfl
@[simp] theorem State.setWa_history (s : State) (w : WorkArea) : (s.setWa w).history = s.history := rfl
@[simp] theorem State.setWa_responses (s : State) (w : WorkArea) : (s.setWa w).responses = s.responses := rfl
@[simp] theorem State.setWa_port (s : State) (w : WorkArea) : (s.setWa w).port = s.port := rfl
@[simp] theorem State.setWa_bench (s : State) (w : WorkArea) : (s.setWa w).bench = s.bench := rfl
@[simp] theorem State.setWa_resetIn (s : State) (w : WorkArea) : (s.setWa w).resetIn = s.resetIn := rfl
@[simp] theorem State.setWa_env (s : State) (w : WorkArea) : (s.setWa w).env = s.env := rfl
@[simp] theorem State.setWa_draws (s : State) (w : WorkArea) : (s.setWa w).draws = s.draws := rfl
@[simp] theorem State.setWa_result (s : State) (w : WorkArea) : (s.setWa w).result = s.result := rfl

/-! ### State.setTmp -/

@[simp] theorem State.setTmp_cfg (s : State) (x : Temps) : (s.setTmp x).cfg = s.cfg := rfl
@[simp] theorem State.setTmp_wa (s : State) (x : Temps) : (s.setTmp x).wa = s.wa := rfl
@[simp] theorem State.setTmp_saHi (s : State) (x : Temps) : (s.setTmp x).saHi = s.saHi := rfl
@[simp] theorem State.setTmp_saLo (s : State) (x : Temps) : (s.setTmp x).saLo = s.saLo := rfl
@[simp] theorem State.setTmp_saSet (s : State) (x : Temps) : (s.setTmp x).saSet = s.saSet := rfl
@[simp] theorem State.setTmp_pos (s : State) (x : Temps) : (s.setTmp x).pos = s.pos := rfl
@[simp] theorem State.setTmp_curOp (s : State) (x : Temps) : (s.setTmp x).curOp = s.curOp := rfl
@[simp] theorem State.setTmp_tmp (s : State) (x : Temps) : (s.setTmp x).tmp = x := rfl
@[simp] theorem State.setTmp_taxonomy (s : State) (x : Temps) : (s.setTmp x).taxonomy = s.taxonomy := rfl
@[simp] theorem State.setTmp_regs (s : State) (x : Temps) : (s.setTmp x).regs = s.regs := rfl
@[simp] theorem State.setTmp_history (s : State) (x : Temps) : (s.setTmp x).history = s.history := rfl
@[simp] theorem State.setTmp_responses (s : State) (x : Temps) : (s.setTmp x).responses = s.responses := rfl
@[simp] theorem State.setTmp_port (s : State) (x : Temps) : (s.setTmp x).port = s.port := rfl
@[simp] theorem State.setTmp_bench (s : State) (x : Temps) : (s.setTmp x).bench = s.bench := rfl
@[simp] theorem State.setTmp_resetIn (s : State) (x : Temps) : (s.setTmp x).resetIn = s.resetIn := rfl
@[simp] theorem State.setTmp_env (s : State) (x : Temps) : (s.setTmp x).env = s.env := rfl
@[simp] theorem State.setTmp_draws (s : State) (x : Temps) : (s.setTmp x).draws = s.draws := rfl
@[simp] theorem State.setTmp_result (s : State) (x : Temps) : (s.setTmp x).result = s.result := rfl

/-! ### State.setRegs -/

@[simp] theorem State.setRegs_cfg (s : State) (x : EngineRegs) : (s.setRegs x).cfg = s.cfg := rfl
@[simp] theorem State.setRegs_wa (s : State) (x : EngineRegs) : (s.setRegs x).wa = s.wa := rfl
@[simp] theorem State.setRegs_saHi (s : State) (x : EngineRegs) : (s.setRegs x).saHi = s.saHi := rfl
@[simp] theorem State.setRegs_saLo (s : State) (x : EngineRegs) : (s.setRegs x).saLo = s.saLo := rfl
@[simp] theorem State.setRegs_saSet (s : State) (x : EngineRegs) : (s.setRegs x).saSet = s.saSet := rfl
@[simp] theorem State.setRegs_pos (s : State) (x : EngineRegs) : (s.setRegs x).pos = s.pos := rfl
@[simp] theorem State.setRegs_curOp (s : State) (x : EngineRegs) : (s.setRegs x).curOp = s.curOp := rfl
@[simp] theorem State.setRegs_tmp (s : State) (x : EngineRegs) : (s.setRegs x).tmp = s.tmp := rfl
@[simp] theorem State.setRegs_taxonomy (s : State) (x : EngineRegs) : (s.setRegs x).taxonomy = s.taxonomy := rfl
@[simp] theorem State.setRegs_regs (s : State) (x : EngineRegs) : (s.setRegs x).regs = x := rfl
@[simp] theorem State.setRegs_history (s : State) (x : EngineRegs) : (s.setRegs x).history = s.history := rfl
@[simp] theorem State.setRegs_responses (s : State) (x : EngineRegs) : (s.setRegs x).responses = s.responses := rfl
@[simp] theorem State.setRegs_port (s : State) (x : EngineRegs) : (s.setRegs x).port = s.port := rfl
@[simp] theorem State.setRegs_bench (s : State) (x : EngineRegs) : (s.setRegs x).bench = s.bench := rfl
@[simp] theorem State.setRegs_resetIn (s : State) (x : EngineRegs) : (s.setRegs x).resetIn = s.resetIn := rfl
@[simp] theorem State.setRegs_env (s : State) (x : EngineRegs) : (s.setRegs x).env = s.env := rfl
@[simp] theorem State.setRegs_draws (s : State) (x : EngineRegs) : (s.setRegs x).draws = s.draws := rfl
@[simp] theorem State.setRegs_result (s : State) (x : EngineRegs) : (s.setRegs x).result = s.result := rfl

/-! ### State.log -/

@[simp] theorem State.log_cfg (s : State) (e : BusEvent) : (s.log e).cfg = s.cfg := rfl
@[simp] theorem State.log_wa (s : State) (e : BusEvent) : (s.log e).wa = s.wa := rfl
@[simp] theorem State.log_saHi (s : State) (e : BusEvent) : (s.log e).saHi = s.saHi := rfl
@[simp] theorem State.log_saLo (s : State) (e : BusEvent) : (s.log e).saLo = s.saLo := rfl
@[simp] theorem State.log_saSet (s : State) (e : BusEvent) : (s.log e).saSet = s.saSet := rfl
@[simp] theorem State.log_pos (s : State) (e : BusEvent) : (s.log e).pos = s.pos := rfl
@[simp] theorem State.log_curOp (s : State) (e : BusEvent) : (s.log e).curOp = s.curOp := rfl
@[simp] theorem State.log_tmp (s : State) (e : BusEvent) : (s.log e).tmp = s.tmp := rfl
@[simp] theorem State.log_taxonomy (s : State) (e : BusEvent) : (s.log e).taxonomy = s.taxonomy := rfl
@[simp] theorem State.log_regs (s : State) (e : BusEvent) : (s.log e).regs = s.regs := rfl
@[simp] theorem State.log_history (s : State) (e : BusEvent) : (s.log e).history = s.history ++ [e] := rfl
@[simp] theorem State.log_responses (s : State) (e : BusEvent) : (s.log e).responses = s.responses := rfl
@[simp] theorem State.log_port (s : State) (e : BusEvent) : (s.log e).port = s.port := rfl
@[simp] theorem State.log_bench (s : State) (e : BusEvent) : (s.log e).bench = s.bench := rfl
@[simp] theorem State.log_resetIn (s : State) (e : BusEvent) : (s.log e).resetIn = s.resetIn := rfl
@[simp] theorem State.log_env (s : State) (e : BusEvent) : (s.log e).env = s.env := rfl
@[simp] theorem State.log_draws (s : State) (e : BusEvent) : (s.log e).draws = s.draws := rfl
@[simp] theorem State.log_result (s : State) (e : BusEvent) : (s.log e).result = s.result := rfl

/-! ### State.respond -/

@[simp] theorem State.respond_cfg (s : State) (x : Response) : (s.respond x).cfg = s.cfg := rfl
@[simp] theorem State.respond_wa (s : State) (x : Response) : (s.respond x).wa = s.wa := rfl
@[simp] theorem State.respond_saHi (s : State) (x : Response) : (s.respond x).saHi = s.saHi := rfl
@[simp] theorem State.respond_saLo (s : State) (x : Response) : (s.respond x).saLo = s.saLo := rfl
@[simp] theorem State.respond_saSet (s : State) (x : Response) : (s.respond x).saSet = s.saSet := rfl
@[simp] theorem State.respond_pos (s : State) (x : Response) : (s.respond x).pos = s.pos := rfl
@[simp] theorem State.respond_curOp (s : State) (x : Response) : (s.respond x).curOp = s.curOp := rfl
@[simp] theorem State.respond_tmp (s : State) (x : Response) : (s.respond x).tmp = s.tmp := rfl
@[simp] theorem State.respond_taxonomy (s : State) (x : Response) : (s.respond x).taxonomy = s.taxonomy := rfl
@[simp] theorem State.respond_regs (s : State) (x : Response) : (s.respond x).regs = s.regs := rfl
@[simp] theorem State.respond_history (s : State) (x : Response) : (s.respond x).history = s.history := rfl
@[simp] theorem State.respond_responses (s : State) (x : Response) : (s.respond x).responses = s.responses ++ [x] := rfl
@[simp] theorem State.respond_port (s : State) (x : Response) : (s.respond x).port = s.port := rfl
@[simp] theorem State.respond_bench (s : State) (x : Response) : (s.respond x).bench = s.bench := rfl
@[simp] theorem State.respond_resetIn (s : State) (x : Response) : (s.respond x).resetIn = s.resetIn := rfl
@[simp] theorem State.respond_env (s : State) (x : Response) : (s.respond x).env = s.env := rfl
@[simp] theorem State.respond_draws (s : State) (x : Response) : (s.respond x).draws = s.draws := rfl
@[simp] theorem State.respond_result (s : State) (x : Response) : (s.respond x).result = s.result := rfl

/-! ### State.deliver -/

@[simp] theorem State.deliver_cfg (s : State) (x : FnResult) : (s.deliver x).cfg = s.cfg := rfl
@[simp] theorem State.deliver_wa (s : State) (x : FnResult) : (s.deliver x).wa = s.wa := rfl
@[simp] theorem State.deliver_saHi (s : State) (x : FnResult) : (s.deliver x).saHi = s.saHi := rfl
@[simp] theorem State.deliver_saLo (s : State) (x : FnResult) : (s.deliver x).saLo = s.saLo := rfl
@[simp] theorem State.deliver_saSet (s : State) (x : FnResult) : (s.deliver x).saSet = s.saSet := rfl
@[simp] theorem State.deliver_pos (s : State) (x : FnResult) : (s.deliver x).pos = s.pos := rfl
@[simp] theorem State.deliver_curOp (s : State) (x : FnResult) : (s.deliver x).curOp = s.curOp := rfl
@[simp] theorem State.deliver_tmp (s : State) (x : FnResult) : (s.deliver x).tmp = s.tmp := rfl
@[simp] theorem State.deliver_taxonomy (s : State) (x : FnResult) : (s.deliver x).taxonomy = s.taxonomy := rfl
@[simp] theorem State.deliver_regs (s : State) (x : FnResult) : (s.deliver x).regs = s.regs := rfl
@[simp] theorem State.deliver_history (s : State) (x : FnResult) : (s.deliver x).history = s.history := rfl
@[simp] theorem State.deliver_responses (s : State) (x : FnResult) : (s.deliver x).responses = s.responses := rfl
@[simp] theorem State.deliver_port (s : State) (x : FnResult) : (s.deliver x).port = s.port := rfl
@[simp] theorem State.deliver_bench (s : State) (x : FnResult) : (s.deliver x).bench = s.bench := rfl
@[simp] theorem State.deliver_resetIn (s : State) (x : FnResult) : (s.deliver x).resetIn = s.resetIn := rfl
@[simp] theorem State.deliver_env (s : State) (x : FnResult) : (s.deliver x).env = s.env := rfl
@[simp] theorem State.deliver_draws (s : State) (x : FnResult) : (s.deliver x).draws = s.draws := rfl
@[simp] theorem State.deliver_result (s : State) (x : FnResult) : (s.deliver x).result = x := rfl

/-! ### State.latch -/

@[simp] theorem State.latch_cfg (s : State) (a : Address) : (s.latch a).cfg = s.cfg := rfl
@[simp] theorem State.latch_wa (s : State) (a : Address) : (s.latch a).wa = s.wa := rfl
@[simp] theorem State.latch_saHi (s : State) (a : Address) : (s.latch a).saHi = addrHi a := rfl
@[simp] theorem State.latch_saLo (s : State) (a : Address) : (s.latch a).saLo = addrLo a := rfl
@[simp] theorem State.latch_saSet (s : State) (a : Address) : (s.latch a).saSet = true := rfl
@[simp] theorem State.latch_pos (s : State) (a : Address) : (s.latch a).pos = s.pos := rfl
@[simp] theorem State.latch_curOp (s : State) (a : Address) : (s.latch a).curOp = s.curOp := rfl
@[simp] theorem State.latch_tmp (s : State) (a : Address) : (s.latch a).tmp = s.tmp := rfl
@[simp] theorem State.latch_taxonomy (s : State) (a : Address) : (s.latch a).taxonomy = s.taxonomy := rfl
@[simp] theorem State.latch_regs (s : State) (a : Address) : (s.latch a).regs = s.regs := rfl
@[simp] theorem State.latch_history (s : State) (a : Address) : (s.latch a).history = s.history := rfl
@[simp] theorem State.latch_responses (s : State) (a : Address) : (s.latch a).responses = s.responses := rfl
@[simp] theorem State.latch_port (s : State) (a : Address) : (s.latch a).port = s.port := rfl
@[simp] theorem State.latch_bench (s : State) (a : Address) : (s.latch a).bench = s.bench := rfl
@[simp] theorem State.latch_resetIn (s : State) (a : Address) : (s.latch a).resetIn = s.resetIn := rfl
@[simp] theorem State.latch_env (s : State) (a : Address) : (s.latch a).env = s.env := rfl
@[simp] theorem State.latch_draws (s : State) (a : Address) : (s.latch a).draws = s.draws := rfl
@[simp] theorem State.latch_result (s : State) (a : Address) : (s.latch a).result = s.result := rfl

/-! ### State.observe -/

@[simp] theorem State.observe_cfg (s : State) (x : Taxonomy) : (s.observe x).cfg = s.cfg := rfl
@[simp] theorem State.observe_wa (s : State) (x : Taxonomy) : (s.observe x).wa = s.wa := rfl
@[simp] theorem State.observe_saHi (s : State) (x : Taxonomy) : (s.observe x).saHi = s.saHi := rfl
@[simp] theorem State.observe_saLo (s : State) (x : Taxonomy) : (s.observe x).saLo = s.saLo := rfl
@[simp] theorem State.observe_saSet (s : State) (x : Taxonomy) : (s.observe x).saSet = s.saSet := rfl
@[simp] theorem State.observe_pos (s : State) (x : Taxonomy) : (s.observe x).pos = s.pos := rfl
@[simp] theorem State.observe_curOp (s : State) (x : Taxonomy) : (s.observe x).curOp = s.curOp := rfl
@[simp] theorem State.observe_tmp (s : State) (x : Taxonomy) : (s.observe x).tmp = s.tmp := rfl
@[simp] theorem State.observe_taxonomy (s : State) (x : Taxonomy) : (s.observe x).taxonomy = x := rfl
@[simp] theorem State.observe_regs (s : State) (x : Taxonomy) : (s.observe x).regs = s.regs := rfl
@[simp] theorem State.observe_history (s : State) (x : Taxonomy) : (s.observe x).history = s.history := rfl
@[simp] theorem State.observe_responses (s : State) (x : Taxonomy) : (s.observe x).responses = s.responses := rfl
@[simp] theorem State.observe_port (s : State) (x : Taxonomy) : (s.observe x).port = s.port := rfl
@[simp] theorem State.observe_bench (s : State) (x : Taxonomy) : (s.observe x).bench = s.bench := rfl
@[simp] theorem State.observe_resetIn (s : State) (x : Taxonomy) : (s.observe x).resetIn = s.resetIn := rfl
@[simp] theorem State.observe_env (s : State) (x : Taxonomy) : (s.observe x).env = s.env := rfl
@[simp] theorem State.observe_draws (s : State) (x : Taxonomy) : (s.observe x).draws = s.draws := rfl
@[simp] theorem State.observe_result (s : State) (x : Taxonomy) : (s.observe x).result = s.result := rfl

/-! ### State.afterDraw: only the environment and the count of draws move -/

@[simp] theorem State.afterDraw_cfg (s : State) : s.afterDraw.cfg = s.cfg := by
  unfold State.afterDraw; split <;> rfl
@[simp] theorem State.afterDraw_wa (s : State) : s.afterDraw.wa = s.wa := by
  unfold State.afterDraw; split <;> rfl
@[simp] theorem State.afterDraw_saHi (s : State) : s.afterDraw.saHi = s.saHi := by
  unfold State.afterDraw; split <;> rfl
@[simp] theorem State.afterDraw_saLo (s : State) : s.afterDraw.saLo = s.saLo := by
  unfold State.afterDraw; split <;> rfl
@[simp] theorem State.afterDraw_saSet (s : State) : s.afterDraw.saSet = s.saSet := by
  unfold State.afterDraw; split <;> rfl
@[simp] theorem State.afterDraw_pos (s : State) : s.afterDraw.pos = s.pos := by
  unfold State.afterDraw; split <;> rfl
@[simp] theorem State.afterDraw_curOp (s : State) : s.afterDraw.curOp = s.curOp := by
  unfold State.afterDraw; split <;> rfl
@[simp] theorem State.afterDraw_tmp (s : State) : s.afterDraw.tmp = s.tmp := by
  unfold State.afterDraw; split <;> rfl
@[simp] theorem State.afterDraw_taxonomy (s : State) : s.afterDraw.taxonomy = s.taxonomy := by
  unfold State.afterDraw; split <;> rfl
@[simp] theorem State.afterDraw_regs (s : State) : s.afterDraw.regs = s.regs := by
  unfold State.afterDraw; split <;> rfl
@[simp] theorem State.afterDraw_history (s : State) : s.afterDraw.history = s.history := by
  unfold State.afterDraw; split <;> rfl
@[simp] theorem State.afterDraw_responses (s : State) : s.afterDraw.responses = s.responses := by
  unfold State.afterDraw; split <;> rfl
@[simp] theorem State.afterDraw_port (s : State) : s.afterDraw.port = s.port := by
  unfold State.afterDraw; split <;> rfl
@[simp] theorem State.afterDraw_bench (s : State) : s.afterDraw.bench = s.bench := by
  unfold State.afterDraw; split <;> rfl
@[simp] theorem State.afterDraw_resetIn (s : State) : s.afterDraw.resetIn = s.resetIn := by
  unfold State.afterDraw; split <;> rfl
@[simp] theorem State.afterDraw_result (s : State) : s.afterDraw.result = s.result := by
  unfold State.afterDraw; split <;> rfl

/-! ### State.refuse: only the responses grow -/

@[simp] theorem State.refuse_cfg (s : State) (why : RefuseReason) : (s.refuse why).cfg = s.cfg := rfl
@[simp] theorem State.refuse_wa (s : State) (why : RefuseReason) : (s.refuse why).wa = s.wa := rfl
@[simp] theorem State.refuse_saHi (s : State) (why : RefuseReason) : (s.refuse why).saHi = s.saHi := rfl
@[simp] theorem State.refuse_saLo (s : State) (why : RefuseReason) : (s.refuse why).saLo = s.saLo := rfl
@[simp] theorem State.refuse_saSet (s : State) (why : RefuseReason) : (s.refuse why).saSet = s.saSet := rfl
@[simp] theorem State.refuse_pos (s : State) (why : RefuseReason) : (s.refuse why).pos = s.pos := rfl
@[simp] theorem State.refuse_curOp (s : State) (why : RefuseReason) : (s.refuse why).curOp = s.curOp := rfl
@[simp] theorem State.refuse_tmp (s : State) (why : RefuseReason) : (s.refuse why).tmp = s.tmp := rfl
@[simp] theorem State.refuse_taxonomy (s : State) (why : RefuseReason) : (s.refuse why).taxonomy = s.taxonomy := rfl
@[simp] theorem State.refuse_regs (s : State) (why : RefuseReason) : (s.refuse why).regs = s.regs := rfl
@[simp] theorem State.refuse_history (s : State) (why : RefuseReason) : (s.refuse why).history = s.history := rfl
@[simp] theorem State.refuse_responses (s : State) (why : RefuseReason) : (s.refuse why).responses = s.responses ++ [.refused why] := rfl
@[simp] theorem State.refuse_port (s : State) (why : RefuseReason) : (s.refuse why).port = s.port := rfl
@[simp] theorem State.refuse_bench (s : State) (why : RefuseReason) : (s.refuse why).bench = s.bench := rfl
@[simp] theorem State.refuse_resetIn (s : State) (why : RefuseReason) : (s.refuse why).resetIn = s.resetIn := rfl
@[simp] theorem State.refuse_env (s : State) (why : RefuseReason) : (s.refuse why).env = s.env := rfl
@[simp] theorem State.refuse_draws (s : State) (why : RefuseReason) : (s.refuse why).draws = s.draws := rfl
@[simp] theorem State.refuse_result (s : State) (why : RefuseReason) : (s.refuse why).result = s.result := rfl

/-! ### State.afterField: only the environment and the count of draws may move -/

@[simp] theorem State.afterField_cfg (s : State) (f : Option Byte) : (s.afterField f).cfg = s.cfg := by
  unfold State.afterField; split <;> simp
@[simp] theorem State.afterField_wa (s : State) (f : Option Byte) : (s.afterField f).wa = s.wa := by
  unfold State.afterField; split <;> simp
@[simp] theorem State.afterField_saHi (s : State) (f : Option Byte) : (s.afterField f).saHi = s.saHi := by
  unfold State.afterField; split <;> simp
@[simp] theorem State.afterField_saLo (s : State) (f : Option Byte) : (s.afterField f).saLo = s.saLo := by
  unfold State.afterField; split <;> simp
@[simp] theorem State.afterField_saSet (s : State) (f : Option Byte) : (s.afterField f).saSet = s.saSet := by
  unfold State.afterField; split <;> simp
@[simp] theorem State.afterField_pos (s : State) (f : Option Byte) : (s.afterField f).pos = s.pos := by
  unfold State.afterField; split <;> simp
@[simp] theorem State.afterField_curOp (s : State) (f : Option Byte) : (s.afterField f).curOp = s.curOp := by
  unfold State.afterField; split <;> simp
@[simp] theorem State.afterField_tmp (s : State) (f : Option Byte) : (s.afterField f).tmp = s.tmp := by
  unfold State.afterField; split <;> simp
@[simp] theorem State.afterField_taxonomy (s : State) (f : Option Byte) : (s.afterField f).taxonomy = s.taxonomy := by
  unfold State.afterField; split <;> simp
@[simp] theorem State.afterField_regs (s : State) (f : Option Byte) : (s.afterField f).regs = s.regs := by
  unfold State.afterField; split <;> simp
@[simp] theorem State.afterField_history (s : State) (f : Option Byte) : (s.afterField f).history = s.history := by
  unfold State.afterField; split <;> simp
@[simp] theorem State.afterField_responses (s : State) (f : Option Byte) : (s.afterField f).responses = s.responses := by
  unfold State.afterField; split <;> simp
@[simp] theorem State.afterField_port (s : State) (f : Option Byte) : (s.afterField f).port = s.port := by
  unfold State.afterField; split <;> simp
@[simp] theorem State.afterField_bench (s : State) (f : Option Byte) : (s.afterField f).bench = s.bench := by
  unfold State.afterField; split <;> simp
@[simp] theorem State.afterField_resetIn (s : State) (f : Option Byte) : (s.afterField f).resetIn = s.resetIn := by
  unfold State.afterField; split <;> simp
@[simp] theorem State.afterField_result (s : State) (f : Option Byte) : (s.afterField f).result = s.result := by
  unfold State.afterField; split <;> simp

/-! ### State.afterReadOf: the history grows by the read; the environment and the draws may move -/

@[simp] theorem State.afterReadOf_cfg (s : State) (addr : Address) (sel : Selection) :
    (s.afterReadOf addr sel).cfg = s.cfg := by
  unfold State.afterReadOf; split <;> simp
@[simp] theorem State.afterReadOf_wa (s : State) (addr : Address) (sel : Selection) :
    (s.afterReadOf addr sel).wa = s.wa := by
  unfold State.afterReadOf; split <;> simp
@[simp] theorem State.afterReadOf_saHi (s : State) (addr : Address) (sel : Selection) :
    (s.afterReadOf addr sel).saHi = s.saHi := by
  unfold State.afterReadOf; split <;> simp
@[simp] theorem State.afterReadOf_saLo (s : State) (addr : Address) (sel : Selection) :
    (s.afterReadOf addr sel).saLo = s.saLo := by
  unfold State.afterReadOf; split <;> simp
@[simp] theorem State.afterReadOf_saSet (s : State) (addr : Address) (sel : Selection) :
    (s.afterReadOf addr sel).saSet = s.saSet := by
  unfold State.afterReadOf; split <;> simp
@[simp] theorem State.afterReadOf_pos (s : State) (addr : Address) (sel : Selection) :
    (s.afterReadOf addr sel).pos = s.pos := by
  unfold State.afterReadOf; split <;> simp
@[simp] theorem State.afterReadOf_curOp (s : State) (addr : Address) (sel : Selection) :
    (s.afterReadOf addr sel).curOp = s.curOp := by
  unfold State.afterReadOf; split <;> simp
@[simp] theorem State.afterReadOf_tmp (s : State) (addr : Address) (sel : Selection) :
    (s.afterReadOf addr sel).tmp = s.tmp := by
  unfold State.afterReadOf; split <;> simp
@[simp] theorem State.afterReadOf_taxonomy (s : State) (addr : Address) (sel : Selection) :
    (s.afterReadOf addr sel).taxonomy = s.taxonomy := by
  unfold State.afterReadOf; split <;> simp
@[simp] theorem State.afterReadOf_regs (s : State) (addr : Address) (sel : Selection) :
    (s.afterReadOf addr sel).regs = s.regs := by
  unfold State.afterReadOf; split <;> simp
@[simp] theorem State.afterReadOf_history (s : State) (addr : Address) (sel : Selection) :
    (s.afterReadOf addr sel).history = s.history ++ [.read addr (s.valueOf sel)] := by
  unfold State.afterReadOf; split <;> simp
@[simp] theorem State.afterReadOf_responses (s : State) (addr : Address) (sel : Selection) :
    (s.afterReadOf addr sel).responses = s.responses := by
  unfold State.afterReadOf; split <;> simp
@[simp] theorem State.afterReadOf_port (s : State) (addr : Address) (sel : Selection) :
    (s.afterReadOf addr sel).port = s.port := by
  unfold State.afterReadOf; split <;> simp
@[simp] theorem State.afterReadOf_bench (s : State) (addr : Address) (sel : Selection) :
    (s.afterReadOf addr sel).bench = s.bench := by
  unfold State.afterReadOf; split <;> simp
@[simp] theorem State.afterReadOf_resetIn (s : State) (addr : Address) (sel : Selection) :
    (s.afterReadOf addr sel).resetIn = s.resetIn := by
  unfold State.afterReadOf; split <;> simp
@[simp] theorem State.afterReadOf_result (s : State) (addr : Address) (sel : Selection) :
    (s.afterReadOf addr sel).result = s.result := by
  unfold State.afterReadOf; split <;> simp

/-! ### State.afterWriteOf: the registers and the history -/

@[simp] theorem State.afterWriteOf_cfg (s : State) (addr : Address) (sel : Selection) (v : Byte) :
    (s.afterWriteOf addr sel v).cfg = s.cfg := rfl
@[simp] theorem State.afterWriteOf_wa (s : State) (addr : Address) (sel : Selection) (v : Byte) :
    (s.afterWriteOf addr sel v).wa = s.wa := rfl
@[simp] theorem State.afterWriteOf_saHi (s : State) (addr : Address) (sel : Selection) (v : Byte) :
    (s.afterWriteOf addr sel v).saHi = s.saHi := rfl
@[simp] theorem State.afterWriteOf_saLo (s : State) (addr : Address) (sel : Selection) (v : Byte) :
    (s.afterWriteOf addr sel v).saLo = s.saLo := rfl
@[simp] theorem State.afterWriteOf_saSet (s : State) (addr : Address) (sel : Selection) (v : Byte) :
    (s.afterWriteOf addr sel v).saSet = s.saSet := rfl
@[simp] theorem State.afterWriteOf_pos (s : State) (addr : Address) (sel : Selection) (v : Byte) :
    (s.afterWriteOf addr sel v).pos = s.pos := rfl
@[simp] theorem State.afterWriteOf_curOp (s : State) (addr : Address) (sel : Selection) (v : Byte) :
    (s.afterWriteOf addr sel v).curOp = s.curOp := rfl
@[simp] theorem State.afterWriteOf_tmp (s : State) (addr : Address) (sel : Selection) (v : Byte) :
    (s.afterWriteOf addr sel v).tmp = s.tmp := rfl
@[simp] theorem State.afterWriteOf_taxonomy (s : State) (addr : Address) (sel : Selection) (v : Byte) :
    (s.afterWriteOf addr sel v).taxonomy = s.taxonomy := rfl
@[simp] theorem State.afterWriteOf_regs (s : State) (addr : Address) (sel : Selection) (v : Byte) :
    (s.afterWriteOf addr sel v).regs = storeByte s.regs sel v := rfl
@[simp] theorem State.afterWriteOf_history (s : State) (addr : Address) (sel : Selection) (v : Byte) :
    (s.afterWriteOf addr sel v).history = s.history ++ [.write addr v] := rfl
@[simp] theorem State.afterWriteOf_responses (s : State) (addr : Address) (sel : Selection) (v : Byte) :
    (s.afterWriteOf addr sel v).responses = s.responses := rfl
@[simp] theorem State.afterWriteOf_port (s : State) (addr : Address) (sel : Selection) (v : Byte) :
    (s.afterWriteOf addr sel v).port = s.port := rfl
@[simp] theorem State.afterWriteOf_bench (s : State) (addr : Address) (sel : Selection) (v : Byte) :
    (s.afterWriteOf addr sel v).bench = s.bench := rfl
@[simp] theorem State.afterWriteOf_resetIn (s : State) (addr : Address) (sel : Selection) (v : Byte) :
    (s.afterWriteOf addr sel v).resetIn = s.resetIn := rfl
@[simp] theorem State.afterWriteOf_env (s : State) (addr : Address) (sel : Selection) (v : Byte) :
    (s.afterWriteOf addr sel v).env = s.env := rfl
@[simp] theorem State.afterWriteOf_draws (s : State) (addr : Address) (sel : Selection) (v : Byte) :
    (s.afterWriteOf addr sel v).draws = s.draws := rfl
@[simp] theorem State.afterWriteOf_result (s : State) (addr : Address) (sel : Selection) (v : Byte) :
    (s.afterWriteOf addr sel v).result = s.result := rfl

end Sys2Proof.Machine
end

