-- ==== Sys2Proof/Laws/Ops.lean ====
section
/-! SUPPORT. What each shared operation can do, said once: the multiplexer at the named addresses, the bus, draws, admission and guards. -/

namespace Sys2Proof.Machine

/-! ### The multiplexer -/

/-- Different named registers have different addresses (R7, `addresses_distinct`). -/
theorem addrOf_injective (m : AddressMap) {r q : Reg} (h : m.addrOf r = m.addrOf q) : r = q := by
  have hd := m.distinct
  simp only [List.nodup_cons, List.mem_cons, List.not_mem_nil, or_false, not_or] at hd
  cases r <;> cases q <;> simp_all [AddressMap.addrOf]

/-- A named register's address selects that register (R95). -/
@[simp] theorem muxSel_addrOf (m : AddressMap) (r : Reg) : muxSel m (m.addrOf r) = .reg r := by
  have hd := m.distinct
  simp only [List.nodup_cons, List.mem_cons, List.not_mem_nil, or_false, not_or] at hd
  cases r <;> simp_all [muxSel, AddressMap.addrOf, eq_comm]

/-- Where no named register stands, the windows and then nothing are selected (R95). -/
theorem muxSel_unnamed (m : AddressMap) (a : Address) (h : ∀ r, a ≠ m.addrOf r) :
    muxSel m a = if inWindows a then .window (windowSlot a) (windowOffset a) else .nothing := by
  have h1 := h .statusA; have h2 := h .control; have h3 := h .busyB; have h4 := h .trigger
  have h5 := h .opcode; have h6 := h .cmdStatus; have h7 := h .issue; have h8 := h .tag
  have h9 := h .lbaR0; have h10 := h .lbaR1; have h11 := h .lbaR2
  simp only [AddressMap.addrOf] at h1 h2 h3 h4 h5 h6 h7 h8 h9 h10 h11
  simp [muxSel, *]

/-! ### Access by name is access by address -/

@[simp] theorem memRead_addrOf (s : State) (r : Reg) : s.memRead (s.cfg.addrs.addrOf r) = s.regRead r := by
  simp [State.memRead, State.regRead]

@[simp] theorem afterMemRead_addrOf (s : State) (r : Reg) :
    s.afterMemRead (s.cfg.addrs.addrOf r) = s.afterRegRead r := by
  simp [State.afterMemRead, State.afterRegRead]

@[simp] theorem memWrite_addrOf (s : State) (r : Reg) (v : Byte) :
    s.memWrite (s.cfg.addrs.addrOf r) v = s.regWrite r v := by
  simp [State.memWrite, State.regWrite]

/-! ### Draws -/

/-- With an environment, a draw is its next byte (R91; log 36). -/
theorem drawn_of_env (s : State) (v : Byte) (rest : List Byte) (h : s.env = v :: rest) : s.drawn = v := by
  simp [State.drawn, h]

/-- With an environment, a draw takes its next byte and no free value. -/
theorem afterDraw_of_env (s : State) (v : Byte) (rest : List Byte) (h : s.env = v :: rest) :
    s.afterDraw = { s with env := rest } := by
  simp [State.afterDraw, h]

/-- Without one, a draw takes the next free value (log 3). -/
theorem afterDraw_of_free (s : State) (h : s.env = []) : s.afterDraw = { s with draws := s.draws + 1 } := by
  simp [State.afterDraw, h]

/-! ### Reads and writes at a named register -/

/-- STATUS_A and BUSY_B read as a draw, whatever was written (R43). -/
@[simp] theorem regRead_statusA (s : State) : s.regRead .statusA = s.drawn := rfl

@[simp] theorem regRead_busyB (s : State) : s.regRead .busyB = s.drawn := rfl

/-- TAG reads as stored or as a draw by `TAG_READBACK` (R42). -/
theorem regRead_tag (s : State) :
    s.regRead .tag = if s.cfg.tagReadback = .draw then s.drawn else s.regs.tag := by
  by_cases h : s.cfg.tagReadback = .draw <;> simp [State.regRead, State.valueOf, readIsDraw, storedByte, h]

/-- TRIGGER reads as stored or as a draw (log 33). -/
theorem regRead_trigger (s : State) :
    s.regRead .trigger = if s.cfg.triggerReadback = .draw then s.drawn else s.regs.trigger := by
  by_cases h : s.cfg.triggerReadback = .draw <;> simp [State.regRead, State.valueOf, readIsDraw, storedByte, h]

/-- What a read at a named register leaves: the history grown by it, and the draw taken if it was one (R93, R98). -/
theorem afterRegRead_eq (s : State) (r : Reg) :
    s.afterRegRead r = (if readIsDraw s.cfg (.reg r) then s.afterDraw else s).log
      (.read (s.cfg.addrs.addrOf r) (s.regRead r)) := rfl

/-- What a write at a named register leaves: that register stored, the history grown by it (R94, R98). -/
theorem regWrite_eq (s : State) (r : Reg) (v : Byte) :
    s.regWrite r v = { s with
      regs := storeByte s.regs (.reg r) v
      history := s.history ++ [.write (s.cfg.addrs.addrOf r) v] } := rfl

/-- A read leaves every register as it was (R54). -/
theorem afterMemRead_regs (s : State) (a : Address) : (s.afterMemRead a).regs = s.regs := by
  simp [State.afterMemRead]

/-- A work-area field that has a value is read as that value, and the read changes nothing. -/
@[simp] theorem fieldValue_some (s : State) (v : Byte) : s.fieldValue (some v) = v := rfl

@[simp] theorem afterField_some (s : State) (v : Byte) : s.afterField (some v) = s := rfl

/-! ### Guards -/

/-- A request in a ready block is performed (R144). -/
theorem whenReady_ready (s : State) (k : State → Answer) (h : s.pos = .idle) : whenReady s k = k s := by
  simp [whenReady, h]

/-- A request in a block that is not ready has no effect (R144). -/
theorem whenReady_busy (s : State) (k : State → Answer) (h : s.pos ≠ .idle) : whenReady s k = .next s := by
  simp [whenReady, h]

/-- A step at its position is performed. -/
theorem atPos_here (p : Pos) (s : State) (k : State → Answer) (h : s.pos = p) : atPos p s k = k s := by
  simp [atPos, h]

/-- If a guarded step answers a next state, it was at its position. -/
theorem atPos_next (p : Pos) (s t : State) (k : State → Answer) (h : atPos p s k = .next t) : s.pos = p ∧ k s = .next t := by
  unfold atPos at h
  split at h
  · exact ⟨‹_›, h⟩
  · cases h

/-! ### Bytes -/

/-- Setting a bit: clearing it and setting it is setting it (R97). -/
theorem withBitSet_eq (x : Byte) (i : Fin 8) : withBitSet x i = x ||| (1#8 <<< i.val) := by
  revert x i; decide +revert

/-- BITTEST is the shifted byte's bit 0 (R96). -/
theorem bitTest_eq (v : Byte) (i : Fin 8) : bitTest v i = ((v >>> i.val) &&& 1 == 1) := by
  revert v i; decide +revert

/-- A field code names a field exactly when it is at most 10 (R85). -/
theorem waFieldOf_isSome (c : BitVec 4) : (waFieldOf c).isSome = true ↔ c.toNat ≤ 10 := by
  revert c; decide

/-- The codes of the eleven fields (R85). -/
@[simp] theorem waFieldOf_code (f : WaField) : waFieldOf (waFieldCode f) = some f := by
  cases f <;> rfl

end Sys2Proof.Machine
end

