-- ==== Sys2Proof/Laws/Steps.lean ====
section
/-! SUPPORT. What each sequencer step leaves, written out once; what a step of the machine can be, said once; and which operations a presented
word can be. -/

namespace Sys2Proof.Machine

-- One theorem at a time: the file's many independent proofs otherwise start a thread each.
set_option Elab.async false

/-! ### Draws and register reads, written out -/

/-- A read of STATUS_A or BUSY_B leaves the draw taken and the read recorded (R43, R98). -/
theorem afterRegRead_statusA (s : State) : s.afterRegRead .statusA = { s.afterDraw with
    history := s.history ++ [.read s.cfg.addrs.aStatusA s.drawn] } := by
  simp [afterRegRead_eq, readIsDraw, State.log, AddressMap.addrOf]

theorem afterRegRead_busyB (s : State) : s.afterRegRead .busyB = { s.afterDraw with
    history := s.history ++ [.read s.cfg.addrs.aBusyB s.drawn] } := by
  simp [afterRegRead_eq, readIsDraw, State.log, AddressMap.addrOf]

/-! ### The steps of the build -/

theorem doI1_eq (s : State) : doI1 s = { s with
    regs := { s.regs with opcode := opcRw }, history := s.history ++ [.write s.cfg.addrs.aOpcode opcRw], pos := .i2 } := rfl

theorem doI2_eq (s : State) : doI2 s = { s with
    regs := { s.regs with cmdStatus := stsRw }, history := s.history ++ [.write s.cfg.addrs.aCmdStatus stsRw], pos := .i3 } := rfl

theorem doI3_eq (s : State) : doI3 s = { s with
    regs := { s.regs with issue := issRw }, history := s.history ++ [.write s.cfg.addrs.aIssue issRw], pos := .i4a } := rfl

theorem doI4a_eq (s : State) : doI4a s = { s with
    regs := { s.regs with tag := tagBase }, history := s.history ++ [.write s.cfg.addrs.aTag tagBase], pos := .i4b } := rfl

theorem doI4b_storage (s : State) (h : s.cfg.tagReadback = .storage) : doI4b s = { s with
    tmp := { s.tmp with t := s.regs.tag }, history := s.history ++ [.read s.cfg.addrs.aTag s.regs.tag], pos := .i4c } := by
  simp [doI4b, afterRegRead_eq, readIsDraw, State.regRead, State.valueOf, storedByte, h, State.log, State.setTmp, State.goto,
    AddressMap.addrOf]

theorem doI4b_draw (s : State) (h : s.cfg.tagReadback = .draw) : doI4b s = { s.afterDraw with
    tmp := { s.tmp with t := s.drawn }, history := s.history ++ [.read s.cfg.addrs.aTag s.drawn], pos := .i4c } := by
  simp [doI4b, afterRegRead_eq, readIsDraw, State.regRead, State.valueOf, h, State.log, State.setTmp, State.goto, AddressMap.addrOf]

theorem doI4c_eq (s : State) : doI4c s = { s with
    regs := { s.regs with tag := s.tmp.t ||| tagValid }
    history := s.history ++ [.write s.cfg.addrs.aTag (s.tmp.t ||| tagValid)], pos := .i5 } := rfl

theorem doI5_some (s : State) (l1 : Byte) (h : s.wa.lba1 = some l1) : doI5 s = { s with
    regs := { s.regs with lbaR0 := l1 }, history := s.history ++ [.write s.cfg.addrs.aLbaR0 l1], pos := .i6 } := by
  simp [doI5, h, regWrite_eq, storeByte, State.goto, AddressMap.addrOf]

theorem doI6_some (s : State) (l0 l3 : Byte) (h0 : s.wa.lba0 = some l0) (h3 : s.wa.lba3 = some l3) : doI6 s = { s with
    regs := { s.regs with lbaR1 := combine l0 l3 }, history := s.history ++ [.write s.cfg.addrs.aLbaR1 (combine l0 l3)]
    pos := .i7 } := by
  simp [doI6, h0, h3, regWrite_eq, storeByte, State.goto, AddressMap.addrOf]

theorem doI7_some (s : State) (l2 : Byte) (h : s.wa.lba2 = some l2) : doI7 s = { s with
    regs := { s.regs with lbaR2 := combine 0 l2 }, history := s.history ++ [.write s.cfg.addrs.aLbaR2 (combine 0 l2)]
    pos := .i8 } := by
  simp [doI7, h, regWrite_eq, storeByte, State.goto, AddressMap.addrOf]

theorem doI8_eq (v : Byte) (s : State) : doI8 v s = { s with
    regs := { s.regs with trigger := v }, history := s.history ++ [.write s.cfg.addrs.aTrigger v], pos := .i9 } := rfl

theorem doI9_eq (s : State) : doI9 s = { s with wa := { s.wa with opCounter := some opcntSentinel }, pos := .c1a } := rfl

/-! ### The steps of the wait -/

theorem doC1a_eq (s : State) : doC1a s = { s.afterDraw with
    tmp := { s.tmp with a1 := s.drawn }, history := s.history ++ [.read s.cfg.addrs.aStatusA s.drawn], pos := .c1b } := by
  simp [doC1a, afterRegRead_statusA, State.setTmp, State.goto]

theorem doC1b_eq (s : State) : doC1b s = { s.afterDraw with
    tmp := { s.tmp with b := s.drawn }, history := s.history ++ [.read s.cfg.addrs.aBusyB s.drawn], pos := .c1c } := by
  simp [doC1b, afterRegRead_busyB, State.setTmp, State.goto]

theorem doC1c_eq (s : State) : doC1c s = { s.afterDraw with
    tmp := { s.tmp with a2 := s.drawn }, history := s.history ++ [.read s.cfg.addrs.aStatusA s.drawn], pos := .c1d } := by
  simp [doC1c, afterRegRead_statusA, State.setTmp, State.goto]

theorem doC1dRead_eq (s : State) : doC1dRead s = { s.afterDraw with
    tmp := { s.tmp with a3 := s.drawn }, history := s.history ++ [.read s.cfg.addrs.aStatusA s.drawn]
    taxonomy := classifyFn (some (observedA s.tmp.a1 s.tmp.a2 s.drawn, s.tmp.b)) } := by
  simp [doC1dRead, afterRegRead_statusA, State.setTmp, State.observe]

theorem doW2_some (s : State) (st : Byte) (h : s.wa.cmdStatus = some st) : doW2 s = { s with
    regs := { s.regs with control := st }, history := s.history ++ [.write s.cfg.addrs.aControl st], pos := .w3a } := by
  simp [doW2, h, regWrite_eq, storeByte, State.goto, AddressMap.addrOf]

theorem doW3a_eq (s : State) : doW3a s = { s.afterDraw with
    tmp := { s.tmp with r := s.drawn }, history := s.history ++ [.read s.cfg.addrs.aBusyB s.drawn], pos := .w3b } := by
  simp [doW3a, afterRegRead_busyB, State.setTmp, State.goto]

theorem doW3b_eq (s : State) : doW3b s = { s with
    regs := { s.regs with busyB := (s.tmp.r &&& 0xFE) ||| 0x01 }
    history := s.history ++ [.write s.cfg.addrs.aBusyB ((s.tmp.r &&& 0xFE) ||| 0x01)], pos := .w4 } := rfl

theorem doW4_eq (s : State) : doW4 s = { s.afterDraw with
    tmp := { s.tmp with p := s.drawn }, history := s.history ++ [.read s.cfg.addrs.aBusyB s.drawn]
    pos := if bitTest s.drawn 0 then .w4 else .w5 } := by
  simp [doW4, afterRegRead_busyB, State.setTmp, State.goto]
  rfl

theorem doW5_eq (s : State) : doW5 s = { s with wa := { s.wa with cmdState := s.wa.cmdState + 1 }, pos := .w6 } := rfl

theorem doW6_eq (s : State) : doW6 s = { s with wa := { s.wa with slotIndex := 0 }, pos := .w7 } := rfl

theorem doW7_eq (s : State) : doW7 s = { s with
    responses := s.responses ++ [.ok], curOp := .none, pos := .idle } := rfl

/-- A set bit keeps the pulse poll turning; a clear one ends it (R128). -/
theorem doW4_turn (s : State) (h : bitTest s.drawn 0 = true) : doW4 s = { s.afterDraw with
    tmp := { s.tmp with p := s.drawn }, history := s.history ++ [.read s.cfg.addrs.aBusyB s.drawn], pos := .w4 } := by
  rw [doW4_eq, if_pos h]

theorem doW4_pass (s : State) (h : bitTest s.drawn 0 = false) : doW4 s = { s.afterDraw with
    tmp := { s.tmp with p := s.drawn }, history := s.history ++ [.read s.cfg.addrs.aBusyB s.drawn], pos := .w5 } := by
  rw [doW4_eq, if_neg (by simp [h])]

/-- What the decision of C1d leaves (R121). -/
theorem decideC1d_cases (s t : State) (h : decideC1d s = .next t) :
    (s.curOp = .checkBusy ∧ t = { s with
      responses := s.responses ++ [.okBusy (sampledBusy s.tmp)], curOp := .none, pos := .idle }) ∨
    ((s.curOp = .issue ∨ s.curOp = .wait) ∧ sampledBusy s.tmp = true ∧ t = { s with pos := .c1a }) ∨
    ((s.curOp = .issue ∨ s.curOp = .wait) ∧ sampledBusy s.tmp = false ∧ t = { s with pos := .w2 }) := by
  unfold decideC1d at h
  cases hc : s.curOp <;> simp only [hc] at h <;> cases h
  · cases hb : sampledBusy s.tmp <;> simp [State.goto, hc]
  · exact .inl ⟨rfl, rfl⟩
  · cases hb : sampledBusy s.tmp <;> simp [State.goto, hc]

/-- The decision of an ISSUE or a WAIT (R121). -/
theorem decideC1d_goes (s : State) (h : s.curOp = .issue ∨ s.curOp = .wait) :
    decideC1d s = .next { s with pos := if sampledBusy s.tmp then .c1a else .w2 } := by
  rcases h with h | h <;> simp only [decideC1d, h, State.goto]

/-- The bit test is the bit (R96). -/
theorem bitTest_getLsbD (v : Byte) (i : Fin 8) : bitTest v i = v.getLsbD i.val := rfl

/-! ### What a step of the machine is -/

/-- With the reset input asserted a step is the reset (R173). -/
theorem step_of_reset (s : State) (h : s.resetIn = true) : step s = .next s.blockReset := by
  simp [step, fetch, h]

/-- Only the position IDLE has no step (R23). -/
theorem stepAt_none (p : Pos) (m : Option Byte) : stepAt p m = none ↔ p = .idle := by
  cases p <;> simp [stepAt]
  split <;> simp

/-- Every answer of a step comes from one of these: reset, the step of a position, waiting, HOST's next request, or what stands on the
bench. -/
theorem step_next_cases (s t : State) (h : step s = .next t) :
    (s.resetIn = true ∧ t = s.blockReset) ∨
    (s.resetIn = false ∧ s.pos ≠ .idle ∧ ∃ i, stepAt s.pos s.wa.mode = some i ∧ exec i s = .next t) ∨
    (s.resetIn = false ∧ s.pos = .idle ∧ s.bench = none ∧ s.port = [] ∧ t = s) ∨
    (s.resetIn = false ∧ s.pos = .idle ∧ s.bench = none ∧ ∃ w rest, s.port = w :: rest ∧
      exec (decodeReq w) { s with port := rest } = .next t) ∨
    (s.resetIn = false ∧ s.pos = .idle ∧ ∃ w i, s.bench = some w ∧ decode w.coded = .ok i ∧
      exec i { s with bench := none } = .next t) := by
  cases hr : s.resetIn with
  | true =>
    rw [step_of_reset s hr] at h
    cases h
    exact .inl ⟨rfl, rfl⟩
  | false =>
    right
    cases hi : stepAt s.pos s.wa.mode with
    | some i =>
      left
      have hp : s.pos ≠ .idle := fun hp => by rw [(stepAt_none s.pos s.wa.mode).2 hp] at hi; cases hi
      exact ⟨rfl, hp, i, rfl, by simpa [step, fetch, hr, hi] using h⟩
    | none =>
      right
      have hp := (stepAt_none _ _).1 hi
      cases hb : s.bench with
      | none =>
        cases hq : s.port with
        | nil =>
          have : Host.Outcome.next s = (.next t : Answer) := by simpa [step, fetch, hr, hi, fetchIdle, hb, fetchPort, hq] using h
          cases this
          exact .inl ⟨rfl, hp, rfl, rfl, rfl⟩
        | cons w rest =>
          exact .inr (.inl ⟨rfl, hp, rfl, w, rest, rfl, by simpa [step, fetch, hr, hi, fetchIdle, hb, fetchPort, hq] using h⟩)
      | some w =>
        cases hd : decode w.coded with
        | ok i => exact .inr (.inr ⟨rfl, hp, w, i, rfl, hd, by simpa [step, fetch, hr, hi, fetchIdle, hb, hd] using h⟩)
        | error e => cases e; simp [step, fetch, hr, hi, fetchIdle, hb, hd] at h

/-- The operations a request word can be (R83, R84): none of them a bus access (R98). -/
theorem decodeReq_cases (w : ReqWord) :
    decodeReq w = .issue ∨ decodeReq w = .checkBusy ∨ decodeReq w = .wait ∨ decodeReq w = .slotAddress ∨
    (∃ f d, decodeReq w = .waWrite f d) ∨ (∃ f, decodeReq w = .waRead f) ∨
    decodeReq w = .reservedOp0 ∨ decodeReq w = .reservedOp7 ∨ (∃ o, decodeReq w = .reservedOp8F o) := by
  unfold decodeReq
  split <;> simp

/-- The operations a word on the bench can be: a bus access, or a descriptor image (R86, R69). -/
theorem decode_bench_cases (w : BenchWord) (i : Instr) (h : decode w.coded = .ok i) :
    (∃ a, i = .regRd a) ∨ (∃ a v, i = .regWr a v) ∨ (∃ b c d, i = .descRwM1 b c d) ∨ (∃ b c d, i = .descRwM23 b c d) := by
  cases w with
  | bus w => cases h; unfold decodeBus; split <;> simp
  | image w =>
    simp only [BenchWord.coded, decode, decodeImage] at h
    split at h
    · cases h; simp
    · split at h
      · cases h; simp
      · cases h

/-- An admitted mode has a trigger value, and it is the value of the row its position selects (R100, R112, R146). -/
theorem trigger_of_admitted (s : State) (m : Byte) (hm : s.wa.mode = some m) (ha : admittedMode s.cfg.modeOther m = true) :
    (s.trigger = some trigM23 ∧ stepAt .i8 s.wa.mode = some .stepI8M23) ∨
    (s.trigger = some trigM1 ∧ stepAt .i8 s.wa.mode = some .stepI8M1) := by
  by_cases h : m = 2 ∨ m = 3
  · exact .inl ⟨by simp only [State.trigger, hm, trigSel, if_pos h], by rcases h with rfl | rfl <;> simp [stepAt, hm]⟩
  · refine .inr ⟨?_, by simp only [stepAt, hm, Option.some.injEq, if_neg h]⟩
    simp only [State.trigger, hm, trigSel, if_neg h]
    by_cases h1 : m = 1
    · simp only [if_pos h1]
    · simp only [if_neg h1]
      cases hmo : s.cfg.modeOther with
      | asMode1 => rfl
      | refuse =>
        rw [hmo] at ha
        simp only [admittedMode, Bool.or_eq_true, beq_iff_eq] at ha
        exact absurd ha (by rintro ((h' | h') | h') <;> simp_all)

/-! ### The step of each position, as an equation -/

theorem step_at_i1 (s : State) (hr : s.resetIn = false) (hp : s.pos = .i1) : step s = .next (doI1 s) := by
  simp [step, fetch, hr, hp, stepAt, exec, execStepI1, atPos]

theorem step_at_i2 (s : State) (hr : s.resetIn = false) (hp : s.pos = .i2) : step s = .next (doI2 s) := by
  simp [step, fetch, hr, hp, stepAt, exec, execStepI2, atPos]

theorem step_at_i3 (s : State) (hr : s.resetIn = false) (hp : s.pos = .i3) : step s = .next (doI3 s) := by
  simp [step, fetch, hr, hp, stepAt, exec, execStepI3, atPos]

theorem step_at_i4a (s : State) (hr : s.resetIn = false) (hp : s.pos = .i4a) : step s = .next (doI4a s) := by
  simp [step, fetch, hr, hp, stepAt, exec, execStepI4a, atPos]

theorem step_at_i4b (s : State) (hr : s.resetIn = false) (hp : s.pos = .i4b) : step s = .next (doI4b s) := by
  simp [step, fetch, hr, hp, stepAt, exec, execStepI4b, atPos]

theorem step_at_i4c (s : State) (hr : s.resetIn = false) (hp : s.pos = .i4c) : step s = .next (doI4c s) := by
  simp [step, fetch, hr, hp, stepAt, exec, execStepI4c, atPos]

theorem step_at_i5 (s : State) (hr : s.resetIn = false) (hp : s.pos = .i5) : step s = .next (doI5 s) := by
  simp [step, fetch, hr, hp, stepAt, exec, execStepI5, atPos]

theorem step_at_i6 (s : State) (hr : s.resetIn = false) (hp : s.pos = .i6) : step s = .next (doI6 s) := by
  simp [step, fetch, hr, hp, stepAt, exec, execStepI6, atPos]

theorem step_at_i7 (s : State) (hr : s.resetIn = false) (hp : s.pos = .i7) : step s = .next (doI7 s) := by
  simp [step, fetch, hr, hp, stepAt, exec, execStepI7, atPos]

theorem step_at_i9 (s : State) (hr : s.resetIn = false) (hp : s.pos = .i9) : step s = .next (doI9 s) := by
  simp [step, fetch, hr, hp, stepAt, exec, execStepI9, atPos]

theorem step_at_c1a (s : State) (hr : s.resetIn = false) (hp : s.pos = .c1a) : step s = .next (doC1a s) := by
  simp [step, fetch, hr, hp, stepAt, exec, execStepC1a, atPos]

theorem step_at_c1b (s : State) (hr : s.resetIn = false) (hp : s.pos = .c1b) : step s = .next (doC1b s) := by
  simp [step, fetch, hr, hp, stepAt, exec, execStepC1b, atPos]

theorem step_at_c1c (s : State) (hr : s.resetIn = false) (hp : s.pos = .c1c) : step s = .next (doC1c s) := by
  simp [step, fetch, hr, hp, stepAt, exec, execStepC1c, atPos]

theorem step_at_w2 (s : State) (hr : s.resetIn = false) (hp : s.pos = .w2) : step s = .next (doW2 s) := by
  simp [step, fetch, hr, hp, stepAt, exec, execStepW2, atPos]

theorem step_at_w3a (s : State) (hr : s.resetIn = false) (hp : s.pos = .w3a) : step s = .next (doW3a s) := by
  simp [step, fetch, hr, hp, stepAt, exec, execStepW3a, atPos]

theorem step_at_w3b (s : State) (hr : s.resetIn = false) (hp : s.pos = .w3b) : step s = .next (doW3b s) := by
  simp [step, fetch, hr, hp, stepAt, exec, execStepW3b, atPos]

theorem step_at_w4 (s : State) (hr : s.resetIn = false) (hp : s.pos = .w4) : step s = .next (doW4 s) := by
  simp [step, fetch, hr, hp, stepAt, exec, execStepW4, atPos]

theorem step_at_w5 (s : State) (hr : s.resetIn = false) (hp : s.pos = .w5) : step s = .next (doW5 s) := by
  simp [step, fetch, hr, hp, stepAt, exec, execStepW5, atPos]

theorem step_at_w6 (s : State) (hr : s.resetIn = false) (hp : s.pos = .w6) : step s = .next (doW6 s) := by
  simp [step, fetch, hr, hp, stepAt, exec, execStepW6, atPos]

theorem step_at_w7 (s : State) (hr : s.resetIn = false) (hp : s.pos = .w7) : step s = .next (doW7 s) := by
  simp [step, fetch, hr, hp, stepAt, exec, execStepW7, atPos]

theorem step_at_c1d (s : State) (hr : s.resetIn = false) (hp : s.pos = .c1d) : step s = decideC1d (doC1dRead s) := by
  simp [step, fetch, hr, hp, stepAt, exec, execStepC1d, atPos]

/-- With the trigger value of its mode, I8 writes it (R112). -/
theorem step_at_i8 (s : State) (m : Byte) (hr : s.resetIn = false) (hp : s.pos = .i8) (hm : s.wa.mode = some m)
    (ha : admittedMode s.cfg.modeOther m = true) : ∃ v, s.trigger = some v ∧ step s = .next (doI8 v s) := by
  rcases trigger_of_admitted s m hm ha with ⟨h1, h2⟩ | ⟨h1, h2⟩ <;>
    refine ⟨_, h1, ?_⟩ <;>
    simp only [step, fetch, hr, Bool.false_eq_true, if_false, hp, h2, exec, execStepI8M1, execStepI8M23, atPos, if_true,
      stepI8With, h1]

/-- What a step of an operation in progress does, position by position (R103 to R114, R120, R121, R125 to R131). -/
theorem step_in_progress (s t : State) (hr : s.resetIn = false) (hp : s.pos ≠ .idle) (h : step s = .next t) :
    (s.pos = .i1 ∧ t = doI1 s) ∨ (s.pos = .i2 ∧ t = doI2 s) ∨ (s.pos = .i3 ∧ t = doI3 s) ∨ (s.pos = .i4a ∧ t = doI4a s) ∨
    (s.pos = .i4b ∧ t = doI4b s) ∨ (s.pos = .i4c ∧ t = doI4c s) ∨ (s.pos = .i5 ∧ t = doI5 s) ∨ (s.pos = .i6 ∧ t = doI6 s) ∨
    (s.pos = .i7 ∧ t = doI7 s) ∨ (s.pos = .i8 ∧ ∃ v, s.trigger = some v ∧ t = doI8 v s) ∨ (s.pos = .i9 ∧ t = doI9 s) ∨
    (s.pos = .c1a ∧ t = doC1a s) ∨ (s.pos = .c1b ∧ t = doC1b s) ∨ (s.pos = .c1c ∧ t = doC1c s) ∨
    (s.pos = .c1d ∧ decideC1d (doC1dRead s) = .next t) ∨ (s.pos = .w2 ∧ t = doW2 s) ∨ (s.pos = .w3a ∧ t = doW3a s) ∨
    (s.pos = .w3b ∧ t = doW3b s) ∨ (s.pos = .w4 ∧ t = doW4 s) ∨ (s.pos = .w5 ∧ t = doW5 s) ∨ (s.pos = .w6 ∧ t = doW6 s) ∨
    (s.pos = .w7 ∧ t = doW7 s) := by
  have key : ∃ i, stepAt s.pos s.wa.mode = some i ∧ exec i s = .next t := by
    rcases step_next_cases s t h with ⟨h1, _⟩ | ⟨_, _, i, h2, h3⟩ | ⟨_, h1, _⟩ | ⟨_, h1, _⟩ | ⟨_, h1, _⟩
    · rw [hr] at h1; cases h1
    · exact ⟨i, h2, h3⟩
    all_goals exact absurd h1 hp
  obtain ⟨i, hi, he⟩ := key
  have at8 : s.pos = .i8 → ∃ v, s.trigger = some v ∧ t = doI8 v s := by
    intro h8
    rw [h8, stepAt] at hi
    have go : ∀ v, stepI8With v s = .next t → ∃ v, s.trigger = some v ∧ t = doI8 v s := by
      intro v hv
      unfold stepI8With at hv
      split at hv
      · split at hv
        · cases hv; exact ⟨v, by simp_all, rfl⟩
        · cases hv
      · cases hv
    split at hi <;> cases hi
    · exact go _ (by simpa [exec, execStepI8M23, atPos_here _ s _ h8] using he)
    · exact go _ (by simpa [exec, execStepI8M1, atPos_here _ s _ h8] using he)
  cases hpp : s.pos
  case idle => exact absurd hpp hp
  case i8 => simpa using at8 hpp
  all_goals
    rw [hpp] at hi
    cases hi
    simp only [exec, execStepI1, execStepI2, execStepI3, execStepI4a, execStepI4b, execStepI4c, execStepI5, execStepI6, execStepI7,
      execStepI9, execStepC1a, execStepC1b, execStepC1c, execStepC1d, execStepW2, execStepW3a, execStepW3b, execStepW4, execStepW5,
      execStepW6, execStepW7, atPos_here _ s _ hpp] at he
    simp_all

/-- What accepting a request leaves (R144 to R154): a response and nothing else, a written field and `ok`, the latched address, or the beginning
of one of the three operations. -/
theorem request_cases (s t : State) (w : ReqWord) (hp : s.pos = .idle) (h : exec (decodeReq w) s = .next t) :
    (∃ x, t = s.respond x) ∨
    (∃ f d, t = (s.setWa (waSet s.wa f d)).respond .ok) ∨
    (t = (s.latch (slotAddr s.wa.slotIndex)).respond (.okAddr (slotAddr s.wa.slotIndex))) ∨
    (issueFieldsWritten s.wa = true ∧ (∃ m, s.wa.mode = some m ∧ admittedMode s.cfg.modeOther m = true) ∧
      t = (s.setOp .issue).goto .i1) ∨
    (t = (s.setOp .checkBusy).goto .c1a) ∨
    (s.wa.cmdStatus.isSome = true ∧ t = (s.setOp .wait).goto .c1a) := by
  rcases decodeReq_cases w with e | e | e | e | ⟨f, d, e⟩ | ⟨f, e⟩ | e | e | ⟨o, e⟩ <;> rw [e] at h
  · simp only [exec, execIssue, whenReady_ready _ _ hp, acceptIssue] at h
    split at h
    · cases h; exact .inl ⟨_, rfl⟩
    · split at h
      · cases h; exact .inl ⟨_, rfl⟩
      · split at h
        · cases h; simp_all
        · cases h; exact .inl ⟨_, rfl⟩
  · simp only [exec, execCheckBusy, whenReady_ready _ _ hp] at h
    cases h; simp
  · simp only [exec, execWait, whenReady_ready _ _ hp, acceptWait] at h
    split at h <;> cases h
    · exact .inl ⟨_, rfl⟩
    · simp_all
  · simp only [exec, execSlotAddress, whenReady_ready _ _ hp] at h
    cases h; simp
  · simp only [exec, execWaWrite, whenReady_ready _ _ hp] at h
    split at h <;> cases h
    · exact .inl ⟨_, rfl⟩
    · exact .inr (.inl ⟨_, _, rfl⟩)
  · simp only [exec, execWaRead, whenReady_ready _ _ hp] at h
    split at h
    · cases h; exact .inl ⟨_, rfl⟩
    · split at h <;> cases h <;> exact .inl ⟨_, rfl⟩
  · simp only [exec, execReservedOp0, reservedRequest, whenReady_ready _ _ hp] at h
    cases h; exact .inl ⟨_, rfl⟩
  · simp only [exec, execReservedOp7, reservedRequest, whenReady_ready _ _ hp] at h
    cases h; exact .inl ⟨_, rfl⟩
  · simp only [exec, execReservedOp8F, reservedRequest, whenReady_ready _ _ hp] at h
    cases h; exact .inl ⟨_, rfl⟩

/-- A request changes no engine register and makes no transaction: HOST has no path to the register space (R98). -/
theorem request_keeps_registers (s t : State) (w : ReqWord) (hp : s.pos = .idle) (h : exec (decodeReq w) s = .next t) :
    t.regs = s.regs ∧ t.history = s.history ∧ t.bench = s.bench := by
  rcases request_cases s t w hp h with ⟨x, rfl⟩ | ⟨f, d, rfl⟩ | rfl | ⟨_, _, rfl⟩ | rfl | ⟨_, rfl⟩ <;> simp

/-- What performing a bench word leaves (R93, R94; log 18): one transaction, or a reported image. -/
theorem bench_cases (i : Instr) (s t : State) (w : BenchWord) (hd : decode w.coded = .ok i) (h : exec i s = .next t) :
    (∃ a x, t = (s.afterMemRead a).deliver x) ∨ (∃ a v, t = s.memWrite a v) ∨ (∃ x, t = s.deliver x) := by
  rcases decode_bench_cases w i hd with ⟨a, rfl⟩ | ⟨a, v, rfl⟩ | ⟨b, c, d, rfl⟩ | ⟨b, c, d, rfl⟩ <;> cases h
  · exact .inl ⟨_, _, rfl⟩
  · exact .inr (.inl ⟨_, _, rfl⟩)
  · exact .inr (.inr ⟨_, rfl⟩)
  · exact .inr (.inr ⟨_, rfl⟩)

end Sys2Proof.Machine
end

