-- ==== Sys2Proof/Laws/Wait.lean ====
section
/-! SUPPORT. What WAIT_COMPLETION can do, said once: each of its steps, and an induction over the steps it takes. -/

namespace Sys2Proof.Machine

/-- The steps of the wait, position by position (R132). -/
theorem waitStep_cases (s t : State) (h : waitStep s = .next t) :
    (s.pos = .c1a ∧ t = doC1a s) ∨ (s.pos = .c1b ∧ t = doC1b s) ∨ (s.pos = .c1c ∧ t = doC1c s) ∨
    (s.pos = .c1d ∧ decideC1d (doC1dRead s) = .next t) ∨ (s.pos = .w2 ∧ t = doW2 s) ∨ (s.pos = .w3a ∧ t = doW3a s) ∨
    (s.pos = .w3b ∧ t = doW3b s) ∨ (s.pos = .w4 ∧ t = doW4 s) ∨ (s.pos = .w5 ∧ t = doW5 s) ∨ (s.pos = .w6 ∧ t = doW6 s) ∨
    (s.pos = .w7 ∧ t = doW7 s) := by
  unfold waitStep at h
  cases hp : s.pos <;> simp only [hp] at h <;>
    simp_all [execStepC1a, execStepC1b, execStepC1c, execStepC1d, execStepW2, execStepW3a, execStepW3b, execStepW4, execStepW5,
      execStepW6, execStepW7, atPos]

/-- What holds of no step, of a step that ends the stretch, and of a step followed by more of it, holds of the whole stretch. -/
theorem runWait_induction (R : State → State → Prop) (none : ∀ s, R s s)
    (last : ∀ s t, waitStep s = .next t → waitTurns s.pos t.pos = true → R s t)
    (more : ∀ s t u, waitStep s = .next t → waitTurns s.pos t.pos = false → R t u → R s u) :
    ∀ (n : Nat) (s t : State), runWait n s = .next t → R s t
  | 0, s, t, h => by cases h; exact none s
  | n + 1, s, t, h => by
    unfold runWait at h
    cases hw : waitStep s with
    | next u =>
      simp only [hw] at h
      split at h
      · cases h; exact last s _ hw ‹_›
      · exact more s u t hw (Bool.eq_false_iff.2 ‹_›) (runWait_induction R none last more n u t h)
    | fault x => simp [hw] at h
    | refused x => simp [hw] at h

/-- WAIT_COMPLETION is performed only for an ISSUE or a WAIT, and is then the stretch of at most eleven steps (log 20). -/
theorem execWaitCompletion_next (s t : State) (h : execWaitCompletion s = .next t) :
    (s.curOp = .issue ∨ s.curOp = .wait) ∧ runWait 11 s = .next t := by
  unfold execWaitCompletion at h
  cases hc : s.curOp <;> simp_all

end Sys2Proof.Machine
end

