-- ==== Sys2Proof/Laws/Exec.lean ====
section
/-! SUPPORT. Everything performing an operation can leave, said once: one constructor for each shape of effect, and the lemma that
`exec` leaves nothing else. -/

namespace Sys2Proof.Machine

/-- The next states of an operation, by the shape of its effect. The operation is named where it alone has that effect. -/
inductive Leaves (s : State) : Instr → State → Prop where
  /-- A request that is not accepted (R144). -/
  | same (i : Instr) : Leaves s i s
  /-- A response and nothing else: a refusal (R156) or a read field (R153). -/
  | respond (i : Instr) (x : Response) : s.pos = .idle → Leaves s i (s.respond x)
  /-- A written field and `ok` (R152). -/
  | field (c : BitVec 4) (d : Byte) (f : WaField) : s.pos = .idle → waFieldOf c = some f →
      Leaves s (.waWrite c d) ((s.setWa (waSet s.wa f d)).respond .ok)
  /-- The latched and answered slot address (R134, R151). -/
  | latch : s.pos = .idle →
      Leaves s .slotAddress ((s.latch (slotAddr s.wa.slotIndex)).respond (.okAddr (slotAddr s.wa.slotIndex)))
  /-- The beginning of an operation (R145, R149, R150). -/
  | start (i : Instr) (op : CurOp) (p : Pos) : s.pos = .idle → Leaves s i ((s.setOp op).goto p)
  /-- A delivered result (log 16). -/
  | deliver (i : Instr) (x : FnResult) : Leaves s i (s.deliver x)
  /-- One read transaction, delivered (R93). -/
  | read (a : Address) (x : FnResult) : Leaves s (.regRd a) ((s.afterMemRead a).deliver x)
  /-- One write transaction (R94). -/
  | write (a : Address) (v : Byte) : Leaves s (.regWr a v) (s.memWrite a v)
  /-- A read and a write transaction (R97). -/
  | readWrite (a : Address) (k : Fin 8) (v : Byte) : Leaves s (.setBit a k) ((s.afterMemRead a).memWrite a v)
  | i1 : s.pos = .i1 → Leaves s .stepI1 (doI1 s)
  | i2 : s.pos = .i2 → Leaves s .stepI2 (doI2 s)
  | i3 : s.pos = .i3 → Leaves s .stepI3 (doI3 s)
  | i4a : s.pos = .i4a → Leaves s .stepI4a (doI4a s)
  | i4b : s.pos = .i4b → Leaves s .stepI4b (doI4b s)
  | i4c : s.pos = .i4c → Leaves s .stepI4c (doI4c s)
  | i5 : s.pos = .i5 → Leaves s .stepI5 (doI5 s)
  | i6 : s.pos = .i6 → Leaves s .stepI6 (doI6 s)
  | i7 : s.pos = .i7 → Leaves s .stepI7 (doI7 s)
  | i8M1 (v : Byte) : s.pos = .i8 → Leaves s .stepI8M1 (doI8 v s)
  | i8M23 (v : Byte) : s.pos = .i8 → Leaves s .stepI8M23 (doI8 v s)
  | i9 : s.pos = .i9 → Leaves s .stepI9 (doI9 s)
  | c1a : s.pos = .c1a → Leaves s .stepC1a (doC1a s)
  | c1b : s.pos = .c1b → Leaves s .stepC1b (doC1b s)
  | c1c : s.pos = .c1c → Leaves s .stepC1c (doC1c s)
  | c1d (t : State) : s.pos = .c1d → decideC1d (doC1dRead s) = .next t → Leaves s .stepC1d t
  | w2 : s.pos = .w2 → Leaves s .stepW2 (doW2 s)
  | w3a : s.pos = .w3a → Leaves s .stepW3a (doW3a s)
  | w3b : s.pos = .w3b → Leaves s .stepW3b (doW3b s)
  | w4 : s.pos = .w4 → Leaves s .stepW4 (doW4 s)
  | w5 : s.pos = .w5 → Leaves s .stepW5 (doW5 s)
  | w6 : s.pos = .w6 → Leaves s .stepW6 (doW6 s)
  | w7 : s.pos = .w7 → Leaves s .stepW7 (doW7 s)
  | advance : Leaves s .stateAdvance (advanceState s)
  | resetSlot : Leaves s .slotReset (resetSlot s)
  | opCounter : Leaves s .opcntSet (setOpCounter s)
  | build (v : Byte) : s.pos = .i1 → s.trigger = some v → Leaves s .build (doI9 (doI8 v (doI1toI7 s)))
  | wait (t : State) : s.curOp = .issue ∨ s.curOp = .wait → runWait 11 s = .next t → Leaves s .waitCompletion t

/-- A request leaves nothing but what accepting it leaves. -/
theorem whenReady_next (s t : State) (k : State → Answer) (h : whenReady s k = .next t) :
    (s.pos = .idle ∧ k s = .next t) ∨ t = s := by
  unfold whenReady at h
  split at h
  · exact .inl ⟨‹_›, h⟩
  · cases h; exact .inr rfl

/-- What performing an operation leaves, whenever it answers a next state. -/
theorem exec_leaves (i : Instr) (s t : State) (h : exec i s = .next t) : Leaves s i t := by
  have req : ∀ k, whenReady s k = .next t → (s.pos = .idle → k s = .next t → Leaves s i t) → Leaves s i t := by
    intro k hk g
    rcases whenReady_next s t k hk with ⟨hp, h⟩ | rfl
    · exact g hp h
    · exact .same i
  have eight : ∀ v, stepI8With v s = .next t → t = doI8 v s := by
    intro v hv
    unfold stepI8With at hv
    split at hv
    · split at hv <;> cases hv
      rfl
    · cases hv
  cases i with
  | issue =>
    simp only [exec, execIssue] at h
    refine req _ h fun hp h => ?_
    simp only [acceptIssue] at h
    repeat' split at h
    all_goals cases h
    all_goals first | exact .respond _ _ hp | exact .start _ _ _ hp
  | checkBusy =>
    simp only [exec, execCheckBusy] at h
    exact req _ h fun hp h => by cases h; exact .start _ _ _ hp
  | wait =>
    simp only [exec, execWait] at h
    refine req _ h fun hp h => ?_
    simp only [acceptWait] at h
    split at h <;> cases h
    · exact .respond _ _ hp
    · exact .start _ _ _ hp
  | slotAddress =>
    simp only [exec, execSlotAddress] at h
    exact req _ h fun hp h => by cases h; exact .latch hp
  | waWrite c d =>
    simp only [exec, execWaWrite] at h
    refine req _ h fun hp h => ?_
    split at h <;> cases h
    · exact .respond _ _ hp
    · exact .field _ _ _ hp ‹_›
  | waRead c =>
    simp only [exec, execWaRead] at h
    refine req _ h fun hp h => ?_
    repeat' split at h
    all_goals cases h; exact .respond _ _ hp
  | reservedOp0 =>
    simp only [exec, execReservedOp0, reservedRequest] at h
    exact req _ h fun hp h => by cases h; exact .respond _ _ hp
  | reservedOp7 =>
    simp only [exec, execReservedOp7, reservedRequest] at h
    exact req _ h fun hp h => by cases h; exact .respond _ _ hp
  | reservedOp8F op =>
    simp only [exec, execReservedOp8F, reservedRequest] at h
    exact req _ h fun hp h => by cases h; exact .respond _ _ hp
  | regRd a => cases h; exact .read _ _
  | regWr a v => cases h; exact .write _ _
  | setBit a k => cases h; exact .readWrite _ _ _
  | descRwM1 b c d => cases h; exact .deliver _ _
  | descRwM23 b c d => cases h; exact .deliver _ _
  | muxSel a => cases h; exact .deliver _ _
  | bitTest v k => cases h; exact .deliver _ _
  | combine v x => cases h; exact .deliver _ _
  | trigSel m => cases h; exact .deliver _ _
  | issueBits p => cases h; exact .deliver _ _
  | lbaSplit l => cases h; exact .deliver _ _
  | desc l m => cases h; exact .deliver _ _
  | busyFn a b => cases h; exact .deliver _ _
  | classify x => cases h; exact .deliver _ _
  | slotAddr k => cases h; exact .deliver _ _
  | phase => cases h; exact .deliver _ _
  | stateAdvance => cases h; exact .advance
  | slotReset => cases h; exact .resetSlot
  | opcntSet => cases h; exact .opCounter
  | stepI1 => simp only [exec, execStepI1] at h; obtain ⟨hp, h⟩ := atPos_next _ _ _ _ h; cases h; exact .i1 hp
  | stepI2 => simp only [exec, execStepI2] at h; obtain ⟨hp, h⟩ := atPos_next _ _ _ _ h; cases h; exact .i2 hp
  | stepI3 => simp only [exec, execStepI3] at h; obtain ⟨hp, h⟩ := atPos_next _ _ _ _ h; cases h; exact .i3 hp
  | stepI4a => simp only [exec, execStepI4a] at h; obtain ⟨hp, h⟩ := atPos_next _ _ _ _ h; cases h; exact .i4a hp
  | stepI4b => simp only [exec, execStepI4b] at h; obtain ⟨hp, h⟩ := atPos_next _ _ _ _ h; cases h; exact .i4b hp
  | stepI4c => simp only [exec, execStepI4c] at h; obtain ⟨hp, h⟩ := atPos_next _ _ _ _ h; cases h; exact .i4c hp
  | stepI5 => simp only [exec, execStepI5] at h; obtain ⟨hp, h⟩ := atPos_next _ _ _ _ h; cases h; exact .i5 hp
  | stepI6 => simp only [exec, execStepI6] at h; obtain ⟨hp, h⟩ := atPos_next _ _ _ _ h; cases h; exact .i6 hp
  | stepI7 => simp only [exec, execStepI7] at h; obtain ⟨hp, h⟩ := atPos_next _ _ _ _ h; cases h; exact .i7 hp
  | stepI8M1 => simp only [exec, execStepI8M1] at h; obtain ⟨hp, h⟩ := atPos_next _ _ _ _ h; cases eight _ h; exact .i8M1 _ hp
  | stepI8M23 => simp only [exec, execStepI8M23] at h; obtain ⟨hp, h⟩ := atPos_next _ _ _ _ h; cases eight _ h; exact .i8M23 _ hp
  | stepI9 => simp only [exec, execStepI9] at h; obtain ⟨hp, h⟩ := atPos_next _ _ _ _ h; cases h; exact .i9 hp
  | stepC1a => simp only [exec, execStepC1a] at h; obtain ⟨hp, h⟩ := atPos_next _ _ _ _ h; cases h; exact .c1a hp
  | stepC1b => simp only [exec, execStepC1b] at h; obtain ⟨hp, h⟩ := atPos_next _ _ _ _ h; cases h; exact .c1b hp
  | stepC1c => simp only [exec, execStepC1c] at h; obtain ⟨hp, h⟩ := atPos_next _ _ _ _ h; cases h; exact .c1c hp
  | stepC1d => simp only [exec, execStepC1d] at h; obtain ⟨hp, h⟩ := atPos_next _ _ _ _ h; exact .c1d t hp h
  | stepW2 => simp only [exec, execStepW2] at h; obtain ⟨hp, h⟩ := atPos_next _ _ _ _ h; cases h; exact .w2 hp
  | stepW3a => simp only [exec, execStepW3a] at h; obtain ⟨hp, h⟩ := atPos_next _ _ _ _ h; cases h; exact .w3a hp
  | stepW3b => simp only [exec, execStepW3b] at h; obtain ⟨hp, h⟩ := atPos_next _ _ _ _ h; cases h; exact .w3b hp
  | stepW4 => simp only [exec, execStepW4] at h; obtain ⟨hp, h⟩ := atPos_next _ _ _ _ h; cases h; exact .w4 hp
  | stepW5 => simp only [exec, execStepW5] at h; obtain ⟨hp, h⟩ := atPos_next _ _ _ _ h; cases h; exact .w5 hp
  | stepW6 => simp only [exec, execStepW6] at h; obtain ⟨hp, h⟩ := atPos_next _ _ _ _ h; cases h; exact .w6 hp
  | stepW7 => simp only [exec, execStepW7] at h; obtain ⟨hp, h⟩ := atPos_next _ _ _ _ h; cases h; exact .w7 hp
  | build =>
    simp only [exec, execBuild] at h
    obtain ⟨hp, h⟩ := atPos_next _ _ _ _ h
    split at h <;> cases h
    exact .build _ hp ‹_›
  | waitCompletion =>
    obtain ⟨hc, h⟩ := execWaitCompletion_next s t h
    exact .wait t hc h

end Sys2Proof.Machine
end

