-- ==== Sys2Proof/Laws/PerInstr.lean ====
section
/-! SUPPORT. Per operation: a well-formed operation's word decodes to it, with every operand at every value (R83 to R86, R69). -/

namespace Sys2Proof.Laws.Encoding

-- One theorem at a time: the file's many independent proofs otherwise start a thread each.
set_option Elab.async false

/-- The word of a well-formed operation, where it has one, decodes to that operation. -/
def Statement (i : Instr) : Prop := i.wellFormed = true → ∀ w, encode i = some w → decode w = .ok i

/-- An operation selected by position or internal has no word (opcode_table.json). -/
theorem of_no_word {i : Instr} (h : encode i = none) : Statement i := by
  intro _ w hw
  rw [h] at hw
  cases hw

theorem issue : Statement (.issue) := by
  intro _ w hw
  cases hw
  decide

theorem checkBusy : Statement (.checkBusy) := by
  intro _ w hw
  cases hw
  decide

theorem wait : Statement (.wait) := by
  intro _ w hw
  cases hw
  decide

theorem slotAddress : Statement (.slotAddress) := by
  intro _ w hw
  cases hw
  decide

theorem waWrite (field : BitVec 4) (data : Byte) : Statement (.waWrite field data) := by
  intro _ w hw
  cases hw
  simp [decode, decodeReq]

theorem waRead (field : BitVec 4) : Statement (.waRead field) := by
  intro _ w hw
  cases hw
  simp [decode, decodeReq]

theorem reservedOp0 : Statement (.reservedOp0) := by
  intro _ w hw
  cases hw
  decide

theorem reservedOp7 : Statement (.reservedOp7) := by
  intro _ w hw
  cases hw
  decide

theorem reservedOp8F (op : BitVec 3) : Statement (.reservedOp8F op) := by
  intro _ w hw
  cases hw
  revert op
  decide

theorem regRd (addr : Address) : Statement (.regRd addr) := by
  intro _ w hw
  cases hw
  simp [decode, decodeBus]

theorem regWr (addr : Address) (v : Byte) : Statement (.regWr addr v) := by
  intro _ w hw
  cases hw
  simp [decode, decodeBus]

theorem descRwM1 (b c d : Byte) : Statement (.descRwM1 b c d) := by
  intro hd w hw
  cases hw
  have h := (mkImage_masked 0x14 b c d 0x40 hd).trans masked_M1
  simp only [decode, decodeImage, h, if_true, imageB_mkImage, imageC_mkImage, imageD_mkImage]

theorem descRwM23 (b c d : Byte) : Statement (.descRwM23 b c d) := by
  intro hd w hw
  cases hw
  have h := (mkImage_masked 0x14 b c d 0x80 hd).trans masked_M23
  simp only [decode, decodeImage, h, if_true, if_neg imageMatch_ne, imageB_mkImage, imageC_mkImage, imageD_mkImage]

theorem stepI1 : Statement (.stepI1) := of_no_word rfl

theorem stepI2 : Statement (.stepI2) := of_no_word rfl

theorem stepI3 : Statement (.stepI3) := of_no_word rfl

theorem stepI4a : Statement (.stepI4a) := of_no_word rfl

theorem stepI4b : Statement (.stepI4b) := of_no_word rfl

theorem stepI4c : Statement (.stepI4c) := of_no_word rfl

theorem stepI5 : Statement (.stepI5) := of_no_word rfl

theorem stepI6 : Statement (.stepI6) := of_no_word rfl

theorem stepI7 : Statement (.stepI7) := of_no_word rfl

theorem stepI8M1 : Statement (.stepI8M1) := of_no_word rfl

theorem stepI8M23 : Statement (.stepI8M23) := of_no_word rfl

theorem stepC1a : Statement (.stepC1a) := of_no_word rfl

theorem stepC1b : Statement (.stepC1b) := of_no_word rfl

theorem stepC1c : Statement (.stepC1c) := of_no_word rfl

theorem stepC1d : Statement (.stepC1d) := of_no_word rfl

theorem stepW2 : Statement (.stepW2) := of_no_word rfl

theorem stepW3a : Statement (.stepW3a) := of_no_word rfl

theorem stepW3b : Statement (.stepW3b) := of_no_word rfl

theorem stepW4 : Statement (.stepW4) := of_no_word rfl

theorem stepI9 : Statement (.stepI9) := of_no_word rfl

theorem stepW5 : Statement (.stepW5) := of_no_word rfl

theorem stepW6 : Statement (.stepW6) := of_no_word rfl

theorem stepW7 : Statement (.stepW7) := of_no_word rfl

theorem muxSel (addr : Address) : Statement (.muxSel addr) := of_no_word rfl

theorem bitTest (v : Byte) (i : Fin 8) : Statement (.bitTest v i) := of_no_word rfl

theorem setBit (addr : Address) (i : Fin 8) : Statement (.setBit addr i) := of_no_word rfl

theorem combine (v s : Byte) : Statement (.combine v s) := of_no_word rfl

theorem trigSel (m : Byte) : Statement (.trigSel m) := of_no_word rfl

theorem issueBits (p : Byte) : Statement (.issueBits p) := of_no_word rfl

theorem lbaSplit (l : Lba) : Statement (.lbaSplit l) := of_no_word rfl

theorem build : Statement (.build) := of_no_word rfl

theorem desc (l : Lba) (mode : Byte) : Statement (.desc l mode) := of_no_word rfl

theorem busyFn (a b : Byte) : Statement (.busyFn a b) := of_no_word rfl

theorem classify (sample : Option (Byte × Byte)) : Statement (.classify sample) := of_no_word rfl

theorem waitCompletion : Statement (.waitCompletion) := of_no_word rfl

theorem slotAddr (slot : BitVec 3) : Statement (.slotAddr slot) := of_no_word rfl

theorem stateAdvance : Statement (.stateAdvance) := of_no_word rfl

theorem slotReset : Statement (.slotReset) := of_no_word rfl

theorem opcntSet : Statement (.opcntSet) := of_no_word rfl

theorem phase : Statement (.phase) := of_no_word rfl

end Sys2Proof.Laws.Encoding
end

