-- ==== Sys2Proof/Laws/Runs.lean ====
section
/-! SUPPORT. Runs of several steps: how they compose, one whole check, the poll of the pulse bit, and the stretch from W2 to success. -/

namespace Sys2Proof.Machine

theorem runSteps_zero (s : State) : runSteps 0 s = .next s := rfl

theorem runSteps_succ (n : Nat) (s t : State) (h : step s = .next t) : runSteps (n + 1) s = runSteps n t := by
  simp [runSteps, Host.Core.run, Sys2Proof.core, h]

theorem runSteps_one (s t : State) (h : step s = .next t) : runSteps 1 s = .next t := runSteps_succ 0 s t h

theorem runSteps_add (m n : Nat) (s t : State) (h : runSteps m s = .next t) : runSteps (m + n) s = runSteps n t := by
  induction m generalizing s with
  | zero => cases h; rw [Nat.zero_add]
  | succ m ih =>
    rw [Nat.add_right_comm]
    cases hs : step s with
    | next u =>
      rw [runSteps_succ m s u hs] at h
      rw [runSteps_succ _ s u hs]
      exact ih u h
    | fault x => simp [runSteps, Host.Core.run, Sys2Proof.core, hs] at h
    | refused x => simp [runSteps, Host.Core.run, Sys2Proof.core, hs] at h

/-- What an idle check classifies as (R124). -/
theorem classify_idle (a1 b a2 a3 : Byte) (h : busyOfSamples a1 b a2 a3 = false) :
    classifyFn (some (observedA a1 a2 a3, b)) = .idle := by
  revert h
  simp only [classifyFn, busyFn, busyOfSamples, bitTest, observedA]
  simp
  intros
  simp_all

/-- One check of an ISSUE or a WAIT over the four bytes ENG shows: four reads, and the decision (R120, R121). -/
theorem runSteps_check (s : State) (a1 b a2 a3 : Byte) (rest : List Byte) (hr : s.resetIn = false) (hp : s.pos = .c1a)
    (hc : s.curOp = .issue ∨ s.curOp = .wait) (he : s.env = a1 :: b :: a2 :: a3 :: rest) :
    runSteps 4 s = .next { s with
      env := rest, tmp := { s.tmp with a1 := a1, b := b, a2 := a2, a3 := a3 }
      taxonomy := classifyFn (some (observedA a1 a2 a3, b))
      history := s.history ++ [.read s.cfg.addrs.aStatusA a1, .read s.cfg.addrs.aBusyB b, .read s.cfg.addrs.aStatusA a2,
        .read s.cfg.addrs.aStatusA a3]
      pos := if busyOfSamples a1 b a2 a3 then .c1a else .w2 } := by
  have e1 := step_at_c1a s hr hp
  rw [doC1a_eq, drawn_of_env s _ _ he, afterDraw_of_env s _ _ he] at e1
  rw [runSteps_succ 3 _ _ e1]
  have e2 := step_at_c1b { s with
    env := b :: a2 :: a3 :: rest, tmp := { s.tmp with a1 := a1 }
    history := s.history ++ [.read s.cfg.addrs.aStatusA a1], pos := .c1b } hr rfl
  rw [doC1b_eq, drawn_of_env _ _ _ rfl, afterDraw_of_env _ _ _ rfl] at e2
  rw [runSteps_succ 2 _ _ e2]
  have e3 := step_at_c1c { s with
    env := a2 :: a3 :: rest, tmp := { s.tmp with a1 := a1, b := b }
    history := s.history ++ [.read s.cfg.addrs.aStatusA a1] ++ [.read s.cfg.addrs.aBusyB b], pos := .c1c } hr rfl
  rw [doC1c_eq, drawn_of_env _ _ _ rfl, afterDraw_of_env _ _ _ rfl] at e3
  rw [runSteps_succ 1 _ _ e3]
  have e4 := step_at_c1d { s with
    env := a3 :: rest, tmp := { s.tmp with a1 := a1, b := b, a2 := a2 }
    history := s.history ++ [.read s.cfg.addrs.aStatusA a1] ++ [.read s.cfg.addrs.aBusyB b] ++ [.read s.cfg.addrs.aStatusA a2]
    pos := .c1d } hr rfl
  rw [doC1dRead_eq, drawn_of_env _ _ _ rfl, afterDraw_of_env _ _ _ rfl] at e4
  rw [runSteps_one _ _ (e4.trans (decideC1d_goes _ hc))]
  simp [sampledBusy]
  rfl

/-- One more poll of the pulse bit while it reads 1 (R128). -/
theorem runSteps_poll (s : State) (p : Byte) (rest : List Byte) (hr : s.resetIn = false) (hp : s.pos = .w4) (he : s.env = p :: rest)
    (hb : p.getLsbD 0 = true) :
    runSteps 1 s = .next { s with
      env := rest, tmp := { s.tmp with p := p }, history := s.history ++ [.read s.cfg.addrs.aBusyB p] } := by
  have e := step_at_w4 s hr hp
  rw [doW4_turn s (by rw [drawn_of_env s _ _ he]; exact hb), drawn_of_env s _ _ he, afterDraw_of_env s _ _ he] at e
  rw [runSteps_one _ _ e, ← hp]

/-- From W2 to the pulse poll (R125 to R127). -/
theorem runSteps_pulse (s : State) (st r : Byte) (rest : List Byte) (hr : s.resetIn = false) (hp : s.pos = .w2)
    (hs : s.wa.cmdStatus = some st) (he : s.env = r :: rest) :
    runSteps 3 s = .next { s with
      env := rest, tmp := { s.tmp with r := r }
      regs := { s.regs with control := st, busyB := (r &&& 0xFE) ||| 0x01 }
      history := s.history ++ [.write s.cfg.addrs.aControl st, .read s.cfg.addrs.aBusyB r,
        .write s.cfg.addrs.aBusyB ((r &&& 0xFE) ||| 0x01)]
      pos := .w4 } := by
  have e1 := step_at_w2 s hr hp
  rw [doW2_some s st hs] at e1
  rw [runSteps_succ 2 _ _ e1]
  have e2 := step_at_w3a { s with
    regs := { s.regs with control := st }, history := s.history ++ [.write s.cfg.addrs.aControl st], pos := .w3a } hr rfl
  rw [doW3a_eq, drawn_of_env _ r rest (by exact he), afterDraw_of_env _ r rest (by exact he)] at e2
  rw [runSteps_succ 1 _ _ e2]
  have e3 := step_at_w3b { s with
    env := rest, tmp := { s.tmp with r := r }
    regs := { s.regs with control := st }
    history := s.history ++ [.write s.cfg.addrs.aControl st] ++ [.read s.cfg.addrs.aBusyB r], pos := .w3b } hr rfl
  rw [doW3b_eq] at e3
  rw [runSteps_one _ _ e3]
  simp

/-- From a pulse poll that reads 0 to the answer (R128 to R131). -/
theorem runSteps_finish (s : State) (p : Byte) (rest : List Byte) (hr : s.resetIn = false) (hp : s.pos = .w4) (he : s.env = p :: rest)
    (hb : p.getLsbD 0 = false) :
    runSteps 4 s = .next { s with
      env := rest, tmp := { s.tmp with p := p }, history := s.history ++ [.read s.cfg.addrs.aBusyB p]
      wa := { s.wa with cmdState := s.wa.cmdState + 1, slotIndex := 0 }
      responses := s.responses ++ [.ok], curOp := .none, pos := .idle } := by
  have e1 := step_at_w4 s hr hp
  rw [doW4_pass s (by rw [drawn_of_env s _ _ he]; exact hb), drawn_of_env s _ _ he, afterDraw_of_env s _ _ he] at e1
  rw [runSteps_succ 3 _ _ e1]
  have e2 := step_at_w5 { s with
    env := rest, tmp := { s.tmp with p := p }, history := s.history ++ [.read s.cfg.addrs.aBusyB p], pos := .w5 } hr rfl
  rw [doW5_eq] at e2
  rw [runSteps_succ 2 _ _ e2]
  have e3 := step_at_w6 { s with
    env := rest, tmp := { s.tmp with p := p }, history := s.history ++ [.read s.cfg.addrs.aBusyB p]
    wa := { s.wa with cmdState := s.wa.cmdState + 1 }, pos := .w6 } hr rfl
  rw [doW6_eq] at e3
  rw [runSteps_succ 1 _ _ e3]
  have e4 := step_at_w7 { s with
    env := rest, tmp := { s.tmp with p := p }, history := s.history ++ [.read s.cfg.addrs.aBusyB p]
    wa := { s.wa with cmdState := s.wa.cmdState + 1, slotIndex := 0 }, pos := .w7 } hr rfl
  rw [doW7_eq] at e4
  rw [runSteps_one _ _ e4]

end Sys2Proof.Machine
end

