-- ==== Sys2Proof/Tests/Slice0.lean ====
section
/-! SUPPORT. Tests: the well-formedness smoke test, words written out from the encodings of spec/30_encoding.md, single operations on the
values of spec/95_test_vectors.md, and for every statement with hypotheses a witness that meets them. The addresses are the binding G3 of
93_implementation_defined.md, which that file allows "only as a test fixture"; nothing rests on them. -/

namespace Sys2Proof.Tests

open Sys2Proof.Machine

/-! ### The fixture -/

def fixtureAddrs : AddressMap where
  aStatusA := 0xE402
  aControl := 0xE403
  aBusyB := 0xE41C
  aTrigger := 0xE420
  aOpcode := 0xE422
  aCmdStatus := 0xE423
  aIssue := 0xE424
  aTag := 0xE425
  aLbaR0 := 0xE426
  aLbaR1 := 0xE427
  aLbaR2 := 0xE428
  distinct := by decide

def fixtureCfg (mo : ModeOther) (rb : Readback) : Params where
  addrs := fixtureAddrs
  modeOther := mo
  tagReadback := rb
  triggerReadback := .storage

/-- The fixture's parameters with TRIGGER not reading back (log 33). -/
def noTriggerReadback : Params := { fixtureCfg .refuse .storage with triggerReadback := .draw }

/-- At IDLE with the work area of scenario S6, slot index 5 and command state 7. -/
def fixture : State :=
  { State.reset with
    cfg := fixtureCfg .refuse .storage
    wa := {
      slotIndex := 5, opCounter := none, cmdState := 7, cmdStatus := some 0xA5, mode := some 2, param0 := none, param1 := none
      lba0 := some 0x78, lba1 := some 0x56, lba2 := some 0x34, lba3 := some 0x12 } }

/-- The fixture right after reset: every work-area field but the two counters without a value. -/
def fresh : State := { fixture with wa := WorkArea.afterReset 4 2 }

/-- The fixture at a position of an operation. -/
def atStep (p : Pos) (op : CurOp) : State := { fixture with pos := p, curOp := op }

/-- The fixture with another mode. -/
def withMode (m : Byte) (mo : ModeOther) : State :=
  { fixture with cfg := fixtureCfg mo .storage, wa := { fixture.wa with mode := some m } }

/-- The state an answer goes on with, if it does. -/
def nextOf : Answer → Option State
  | .next t => some t
  | .fault _ => none
  | .refused _ => none

/-! ### Well-formedness: every check refuses an ill-formed term -/

theorem test_wf_M1_refuses : (Instr.descRwM1 0x56 0x78 0xD1).wellFormed = false := by decide
theorem test_wf_M23_refuses : (Instr.descRwM23 0x56 0x78 0xD2).wellFormed = false := by decide
theorem test_wf_accepts : (Instr.descRwM1 0x56 0x78 0xD0).wellFormed = true ∧ (Instr.waWrite 15 0xFF).wellFormed = true ∧
    (Instr.stepW7).wellFormed = true ∧ (Instr.bitTest 0xFF 7).wellFormed = true := by decide

/-! ### Decoding: words written out from R83 to R86 and R69 -/

theorem test_decode_requests :
    decode (.req 0b0000000000000000) = .ok .reservedOp0 ∧ decode (.req 0b0001000011111111) = .ok .issue ∧
    decode (.req 0b0010111100000000) = .ok .checkBusy ∧ decode (.req 0b0011000000000000) = .ok .wait ∧
    decode (.req 0b0100000000000001) = .ok .slotAddress ∧ decode (.req 0b0101101000010010) = .ok (.waWrite 10 0x12) ∧
    decode (.req 0b0110001011111111) = .ok (.waRead 2) ∧ decode (.req 0b0111111111111111) = .ok .reservedOp7 ∧
    decode (.req 0b1000000000000000) = .ok (.reservedOp8F 0) ∧ decode (.req 0b1101000000000000) = .ok (.reservedOp8F 5) := by decide

/-- V1.13 and V1.14. -/
theorem test_decode_bus :
    decode (.bus 0b0111001000100001011111111#25) = .ok (.regRd 0xE442) ∧
    decode (.bus 0b1111001000100001001011010#25) = .ok (.regWr 0xE442 0x5A) := by decide

/-- V10.1 and V10.3, and a word no row matches: bit 8 of an image is fixed at 0 (R76). -/
theorem test_decode_images :
    decode (.image 0x329001145678D080) = .ok (.descRwM23 0x56 0x78 0xD0) ∧
    decode (.image 0x32900114FFFFFC40) = .ok (.descRwM1 0xFF 0xFF 0xFC) ∧
    decode (.image 0x329001145678D180) = .error .notDescriptor ∧
    decode (.image 0x329001145678D0C0) = .error .notDescriptor := by decide

/-- R90: the words of the lines of P1. -/
theorem test_encode_lines :
    lineWaWrite .lba0 0x78 = 0x5778 ∧ lineWaWrite .cmdStatus 0x90 = 0x5390 ∧ lineIssue = 0x1000 ∧
    lineWaRead .opCounter = 0x6100 ∧ lineSlotAddress = 0x4000 ∧ lineCheckBusy = 0x2000 ∧ lineWait = 0x3000 := by
  decide

/-- P1: `CMD_RW 0x12345678, 2, 0x90`. -/
theorem test_pseudo_cmdRw : pseudoCmdRw 0x12345678 2 0x90 =
    [0x5778, 0x5856, 0x5934, 0x5A12, 0x5402, 0x5390, 0x1000] := by decide

/-- The table's numbering: one word in its low bits; a value with no room is none. -/
theorem test_table_words :
    decodeTableWord 16 0x10FF = some .issue ∧ decodeTableWord 25 0x1E4425A = some (.regWr 0xE442 0x5A) ∧
    decodeTableWord 64 0x329001145678D080 = some (.descRwM23 0x56 0x78 0xD0) ∧ decodeTableWord 16 0x10000 = none := by decide

/-- A placed word is what the next step runs: a request at HOST's port (log 23), a bus word on the bench (log 2). -/
theorem test_withFetchWord :
    (∃ t, step (fixture.withFetchWord 16 0x4000) = .next t ∧ t.responses = [.okAddr 0xE4E2] ∧ t.port = []) ∧
    (∃ t, step (fixture.withFetchWord 25 0x1E42232) = .next t ∧ t.regs.opcode = 0x32 ∧ t.bench = none) :=
  ⟨⟨_, rfl, rfl, rfl⟩, ⟨_, rfl, rfl, rfl⟩⟩

/-! ### Requests (V8, V11, V12, P6) -/

theorem test_issue_accepted : ∃ t, exec .issue fixture = .next t ∧ t.pos = .i1 ∧ t.curOp = .issue ∧ t.responses = [] :=
  ⟨_, rfl, rfl, rfl, rfl⟩

/-- V11.17 and V11.18: mode 4 is `bad_mode`, but an unwritten field comes first. -/
theorem test_issue_refused :
    (∃ t, exec .issue (withMode 4 .refuse) = .next t ∧ t.responses = [.refused .badMode] ∧ t.pos = .idle) ∧
    (∃ t, exec .issue { withMode 0 .refuse with wa := { (withMode 0 .refuse).wa with lba2 := none } } = .next t ∧
      t.responses = [.refused .unwrittenField]) :=
  ⟨⟨_, rfl, rfl, rfl⟩, ⟨_, rfl, rfl⟩⟩

/-- V12.3: allowed right after reset. -/
theorem test_checkBusy : ∃ t, exec .checkBusy fresh = .next t ∧ t.pos = .c1a ∧ t.curOp = .checkBusy := ⟨_, rfl, rfl, rfl⟩

/-- V7.7. -/
theorem test_wait_refused : ∃ t, exec .wait fresh = .next t ∧ t.responses = [.refused .unwrittenField] ∧ t.pos = .idle :=
  ⟨_, rfl, rfl, rfl⟩

theorem test_wait_accepted : ∃ t, exec .wait fixture = .next t ∧ t.pos = .c1a ∧ t.curOp = .wait := ⟨_, rfl, rfl, rfl⟩

/-- V8.5. -/
theorem test_slotAddress : ∃ t, exec .slotAddress fixture = .next t ∧
    t.saHi = 0xE4 ∧ t.saLo = 0xE2 ∧ t.saSet = true ∧ t.responses = [.okAddr 0xE4E2] := ⟨_, rfl, by decide⟩

/-- V11.6: an out-of-range slot index keeps its low three bits. -/
theorem test_waWrite_slot : ∃ t, exec (.waWrite 0 0x0D) fresh = .next t ∧ t.wa.slotIndex = 5 ∧ t.responses = [.ok] :=
  ⟨_, rfl, by decide⟩

/-- V11.15. -/
theorem test_waWrite_reserved : ∃ t, exec (.waWrite 11 0x00) fresh = .next t ∧ t.wa = fresh.wa ∧ t.responses = [.refused .reservedField] :=
  ⟨_, rfl, rfl, rfl⟩

theorem test_waRead_state : ∃ t, exec (.waRead 2) fixture = .next t ∧ t.responses = [.okByte 0x07] := ⟨_, rfl, by decide⟩

/-- V11.13. -/
theorem test_waRead_unwritten : ∃ t, exec (.waRead 7) fresh = .next t ∧ t.responses = [.refused .unwrittenField] := ⟨_, rfl, rfl⟩

/-- V11.14. -/
theorem test_reserved : ∀ i ∈ [Instr.reservedOp0, .reservedOp7, .reservedOp8F 7],
    (nextOf (exec i fixture)).map (fun t => t.responses) = some [.refused .reservedOp] := by decide

/-- V11.19: not accepted while the block is not ready. -/
theorem test_request_not_ready : exec .issue (atStep .w4 .issue) = .next (atStep .w4 .issue) := rfl

/-! ### Register file (V1, V2) -/

/-- V1.4: two reads of STATUS_A may differ. -/
theorem test_regRd_statusA : ∃ t u, exec (.regRd 0xE402) { fixture with env := [0x02, 0x00] } = .next t ∧ t.result = .byte 0x02 ∧
    exec (.regRd 0xE402) t = .next u ∧ u.result = .byte 0x00 := ⟨_, _, rfl, rfl, rfl, rfl⟩

/-- V1.5: BUSY_B is not storage. -/
theorem test_regWr_busyB : ∃ t u, exec (.regWr 0xE41C 0x01) { fixture with env := [0x00] } = .next t ∧ t.regs.busyB = 0x01 ∧
    exec (.regRd 0xE41C) t = .next u ∧ u.result = .byte 0x00 := ⟨_, _, rfl, rfl, rfl, rfl⟩

/-- TRIGGER, where it reads back (R93) and where it does not (U5 of 93_implementation_defined.md). -/
theorem test_regRd_trigger :
    (∃ t, exec (.regRd 0xE420) { fixture with regs := { fixture.regs with trigger := 0x80 } } = .next t ∧ t.result = .byte 0x80) ∧
    (∃ t, exec (.regRd 0xE420) { fixture with cfg := noTriggerReadback, regs := { fixture.regs with trigger := 0x80 }, env := [0x13] } =
      .next t ∧ t.result = .byte 0x13) := ⟨⟨_, rfl, rfl⟩, ⟨_, rfl, rfl⟩⟩

/-- V1.1, and a window keeps nothing. -/
theorem test_regWr_storage :
    (∃ t, exec (.regWr 0xE422 0x32) fixture = .next t ∧ t.regs.opcode = 0x32 ∧ t.history = [.write 0xE422 0x32]) ∧
    (∃ t, exec (.regWr 0xE442 0x5A) fixture = .next t ∧ t.regs = fixture.regs) := ⟨⟨_, rfl, rfl, rfl⟩, ⟨_, rfl, rfl⟩⟩

/-- V1.6 to V1.11, the edges of the windows. -/
theorem test_muxSel_edges :
    muxSel fixtureAddrs 0xE442 = .window 0 0 ∧ muxSel fixtureAddrs 0xE461 = .window 0 31 ∧ muxSel fixtureAddrs 0xE462 = .window 1 0 ∧
    muxSel fixtureAddrs 0xE4E5 = .window 5 3 ∧ muxSel fixtureAddrs 0xE541 = .window 7 31 ∧ muxSel fixtureAddrs 0xE441 = .nothing ∧
    muxSel fixtureAddrs 0xE542 = .nothing := by decide

theorem test_muxSel_named : ∃ t, exec (.muxSel 0xE425) fixture = .next t ∧ t.result = .selection (.reg .tag) := ⟨_, rfl, by decide⟩

/-- V2.1 to V2.8. -/
theorem test_bitTest :
    [bitTest 0x02 1, bitTest 0xF1 1, bitTest 0x04 2, bitTest 0xFB 2, bitTest 0x08 3, bitTest 0xF7 3, bitTest 0x01 0, bitTest 0xFE 0] =
      [true, false, true, false, true, false, true, false] := by decide

/-- V2.14, and V2.9 on a storage register. -/
theorem test_setBit :
    (nextOf (exec (.setBit 0xE41C 0) { fixture with env := [0x7E] })).map (fun t => t.history) =
      some [.read 0xE41C 0x7E, .write 0xE41C 0x7F] ∧
    (nextOf (exec (.setBit 0xE425 4) { fixture with regs := { fixture.regs with tag := 0x04 } })).map (fun t => t.history) =
      some [.read 0xE425 0x04, .write 0xE425 0x14] := by decide

/-! ### Descriptor builder (V3, V4, V10, P1) -/

/-- V3.2, V3.3, V3.5, V3.6, V3.8, V3.9, V3.13. -/
theorem test_combine :
    (combine 0xFF 0x00, combine 0x00 0xFF, combine 0x78 0x12, combine 0x00 0x34, combine 0x02 0x80, combine 0xAA 0x15, combine 0x80 0x20) =
      (0xFF, 0xFC, 0x78, 0xD0, 0x02, 0xFE, 0x80) := by decide

/-- V4.1 to V4.5. -/
theorem test_trigSel :
    (trigSel .refuse 1, trigSel .refuse 2, trigSel .refuse 3, trigSel .refuse 0, trigSel .asMode1 0, trigSel .asMode1 0xFF) =
      (some 0x40, some 0x80, some 0x80, none, some 0x40, some 0x40) := by decide

/-- V4.6. -/
theorem test_issueBits :
    [issueBits 0x00, issueBits 0x3F, issueBits 0x40, issueBits 0x80, issueBits 0xC0, issueBits 0xFF] = [0, 0, 1, 2, 3, 3] := by decide

/-- V4.7. -/
theorem test_lbaSplit : ∃ t, exec (.lbaSplit 0x12345678) fixture = .next t ∧ t.result = .lbaBytes 0x78 0x56 0x34 0x12 :=
  ⟨_, rfl, by decide⟩

/-- V10.1, V10.3, V10.5, V10.6, V10.8. -/
theorem test_desc :
    descOf .refuse 0x12345678 2 = some 0x329001145678D080 ∧ descOf .refuse 0xFFFFFFFF 1 = some 0x32900114FFFFFC40 ∧
    descOf .refuse 0x3F000000 2 = some 0x3290011400FC0080 ∧ descOf .refuse 0x000000FC 2 = some 0x3290011400FC0080 ∧
    descOf .refuse 0xDEADBEEF 3 = some 0x32900114BEFFB480 ∧ descOf .refuse 0 4 = none := by decide

theorem test_step_constants :
    (nextOf (exec .stepI1 (atStep .i1 .issue))).map (fun t => (t.history, t.pos)) = some ([.write 0xE422 0x32], .i2) ∧
    (nextOf (exec .stepI2 (atStep .i2 .issue))).map (fun t => (t.history, t.pos)) = some ([.write 0xE423 0x90], .i3) ∧
    (nextOf (exec .stepI3 (atStep .i3 .issue))).map (fun t => (t.history, t.pos)) = some ([.write 0xE424 0x01], .i4a) ∧
    (nextOf (exec .stepI4a (atStep .i4a .issue))).map (fun t => (t.history, t.pos)) = some ([.write 0xE425 0x04], .i4b) := by decide

/-- S7 and V1.3: the TAG read under `storage` and under `draw`, and the write after it. -/
theorem test_step_tag :
    (nextOf (exec .stepI4b { atStep .i4b .issue with regs := { fixture.regs with tag := 0x04 } })).map (fun t => (t.tmp.t, t.pos)) =
      some (0x04, .i4c) ∧
    (nextOf (exec .stepI4b { atStep .i4b .issue with cfg := fixtureCfg .refuse .draw, env := [0xE4] })).map (fun t => t.tmp.t) = some 0xE4 ∧
    (nextOf (exec .stepI4c { atStep .i4c .issue with tmp := { fixture.tmp with t := 0xE4 } })).map (fun t => t.regs.tag) = some 0xF4 := by
  decide

/-- S6. -/
theorem test_step_lba :
    (nextOf (exec .stepI5 (atStep .i5 .issue))).map (fun t => t.regs.lbaR0) = some 0x56 ∧
    (nextOf (exec .stepI6 (atStep .i6 .issue))).map (fun t => t.regs.lbaR1) = some 0x78 ∧
    (nextOf (exec .stepI7 (atStep .i7 .issue))).map (fun t => t.regs.lbaR2) = some 0xD0 := by decide

theorem test_step_trigger :
    (nextOf (exec .stepI8M23 (atStep .i8 .issue))).map (fun t => (t.regs.trigger, t.pos)) = some (0x80, .i9) ∧
    (nextOf (exec .stepI8M1 { withMode 1 .refuse with pos := .i8 })).map (fun t => t.regs.trigger) = some 0x40 ∧
    exec .stepI8M1 (atStep .i8 .issue) = .refused .notSelected := ⟨by decide, by decide, rfl⟩

theorem test_step_counter : ∃ t, exec .stepI9 (atStep .i9 .issue) = .next t ∧ t.wa.opCounter = some 5 ∧ t.pos = .c1a ∧ t.history = [] :=
  ⟨_, rfl, by decide⟩

/-- P1: the ten transactions of the build. -/
theorem test_build : (nextOf (exec .build (atStep .i1 .issue))).map (fun t => t.history) =
    some [.write 0xE422 0x32, .write 0xE423 0x90, .write 0xE424 0x01, .write 0xE425 0x04, .read 0xE425 0x04, .write 0xE425 0x14,
      .write 0xE426 0x56, .write 0xE427 0x78, .write 0xE428 0xD0, .write 0xE420 0x80] := by decide

/-- S6 as an image: held by the registers once they have those values, and not before. -/
theorem test_descriptor_rows :
    (∃ t, exec (.descRwM23 0x56 0x78 0xD0) { fixture with regs := { fixture.regs with
        opcode := 0x32, cmdStatus := 0x90, issue := 0x01, tag := 0x14, lbaR0 := 0x56, lbaR1 := 0x78, lbaR2 := 0xD0, trigger := 0x80 } } =
      .next t ∧ t.result = .descriptor false 0x56 0x78 0xD0 true) ∧
    (∃ t, exec (.descRwM1 0x56 0x78 0xD0) fixture = .next t ∧ t.result = .descriptor true 0x56 0x78 0xD0 false) :=
  ⟨⟨_, rfl, by decide⟩, ⟨_, rfl, by decide⟩⟩

/-! ### Busy and completion monitor (V5, V6, V7) -/

/-- V5.0, V5.1, V5.2, V5.4, V5.8 and the ignored bits. -/
theorem test_busyFn :
    (busyFn 0x00 0x00, busyFn 0x00 0x01, busyFn 0x02 0x00, busyFn 0x04 0x00, busyFn 0x08 0x00, busyFn 0xF1 0xFE) =
      (false, true, true, true, true, false) := by decide

/-- V5.0, V5.3, V5.7, V5.10 and before any sample. -/
theorem test_classify :
    (classifyFn (some (0x00, 0x00)), classifyFn (some (0x02, 0x01)), classifyFn (some (0x06, 0x01)), classifyFn (some (0x0A, 0x00)),
      classifyFn none) = (.idle, .busy, .errorPending, .errorPending, .unknown) := by decide

theorem test_check_reads :
    (nextOf (exec .stepC1a { atStep .c1a .wait with env := [0xAB] })).map (fun t => (t.tmp.a1, t.history, t.pos)) =
      some (0xAB, [.read 0xE402 0xAB], .c1b) ∧
    (nextOf (exec .stepC1b { atStep .c1b .wait with env := [0xAB] })).map (fun t => (t.tmp.b, t.history, t.pos)) =
      some (0xAB, [.read 0xE41C 0xAB], .c1c) ∧
    (nextOf (exec .stepC1c { atStep .c1c .wait with env := [0xAB] })).map (fun t => (t.tmp.a2, t.history, t.pos)) =
      some (0xAB, [.read 0xE402 0xAB], .c1d) := by decide

/-- V6.10: every sample has the bits set that it does not test; V6.6: bit 3 in the last. -/
theorem test_check_decides :
    (nextOf (exec .stepC1d { atStep .c1d .checkBusy with
      tmp := { fixture.tmp with a1 := 0x0C, b := 0xFE, a2 := 0x0A }, env := [0x06] })).map (fun t => (t.responses, t.pos)) =
      some ([.okBusy false], .idle) ∧
    (nextOf (exec .stepC1d { atStep .c1d .wait with env := [0x08] })).map (fun t => (t.responses, t.pos)) = some ([], .c1a) := by decide

theorem test_wait_steps :
    (nextOf (exec .stepW2 (atStep .w2 .wait))).map (fun t => t.history) = some [.write 0xE403 0xA5] ∧
    (nextOf (exec .stepW3a { atStep .w3a .wait with env := [0x80] })).map (fun t => t.tmp.r) = some 0x80 ∧
    (nextOf (exec .stepW3b { atStep .w3b .wait with tmp := { fixture.tmp with r := 0x80 } })).map (fun t => t.history) =
      some [.write 0xE41C 0x81] := by decide

/-- V7.3: bit 0 alone decides whether W4 turns. -/
theorem test_pulse_poll :
    (nextOf (exec .stepW4 { atStep .w4 .wait with env := [0x81] })).map (fun t => t.pos) = some .w4 ∧
    (nextOf (exec .stepW4 { atStep .w4 .wait with env := [0x80] })).map (fun t => t.pos) = some .w5 := by decide

/-- V9.4 and V9.6. -/
theorem test_wait_end :
    (nextOf (exec .stepW5 (atStep .w5 .wait))).map (fun t => t.wa.cmdState) = some 0 ∧
    (nextOf (exec .stepW6 (atStep .w6 .wait))).map (fun t => t.wa.slotIndex) = some 0 ∧
    (nextOf (exec .stepW7 (atStep .w7 .wait))).map (fun t => (t.responses, t.pos, t.curOp)) = some ([.ok], .idle, .none) := by decide

/-- V7.1, with the upper bits of P7. -/
theorem test_waitCompletion :
    (nextOf (exec .waitCompletion { atStep .c1a .wait with env := [0x00, 0x00, 0x00, 0x00, 0x7E, 0x00] })).map
      (fun t => (t.history, t.wa.cmdState, t.wa.slotIndex, t.responses)) =
    some ([.read 0xE402 0x00, .read 0xE41C 0x00, .read 0xE402 0x00, .read 0xE402 0x00, .write 0xE403 0xA5, .read 0xE41C 0x7E,
      .write 0xE41C 0x7F, .read 0xE41C 0x00], 0, 0, [.ok]) := by decide

/-! ### Slot and state tracker (V8, V9) -/

/-- V8.0, V8.5, V8.6, V8.7. -/
theorem test_slotAddr : (slotAddr 0, slotAddr 5, slotAddr 6, slotAddr 7) = (0xE442, 0xE4E2, 0xE502, 0xE522) := by decide

theorem test_counters :
    (nextOf (exec .stateAdvance fixture)).map (fun t => t.wa.cmdState) = some 0 ∧
    (nextOf (exec .slotReset fixture)).map (fun t => t.wa.slotIndex) = some 0 ∧
    (nextOf (exec .opcntSet fixture)).map (fun t => t.wa.opCounter) = some (some 5) := by decide

/-- V9's phase table at its boundaries. -/
theorem test_phase :
    [phaseOf .idle .none, phaseOf .i1 .issue, phaseOf .i8 .issue, phaseOf .i9 .issue, phaseOf .c1a .issue, phaseOf .w6 .wait,
      phaseOf .w7 .wait, phaseOf .c1d .checkBusy] =
    [.idle, .building, .building, .triggered, .waiting, .waiting, .complete, .idle] := by decide

/-! ### Reset (V12) -/

/-- V12.5: reset in W4. -/
theorem test_reset_input : ∃ t, step { atStep .w4 .issue with resetIn := true, regs := { fixture.regs with trigger := 0x40 } } = .next t ∧
    t.pos = .idle ∧ t.responses = [] ∧ t.regs.trigger = 0x40 ∧ t.wa.mode = none := ⟨_, rfl, by decide⟩

/-! ### Witnesses: the hypotheses of each statement can be met -/

/-- Some next state with a property that can be decided. -/
def goesTo (a : Answer) (p : State → Bool) : Bool :=
  match nextOf a with
  | some t => p t
  | none => false

theorem test_witness_EncodedOperationsDecodeBack :
    (Instr.descRwM1 0xFF 0xFF 0xFC).wellFormed = true ∧ encode (.descRwM1 0xFF 0xFF 0xFC) = some (.image 0x32900114FFFFFC40) := by decide

theorem test_witness_DecodedWordsReencode : decodeImage 0x32900114FFFFFC40 = .ok (.descRwM1 0xFF 0xFF 0xFC) := by decide

/-- Its four clauses. -/
theorem test_witness_StepPerformsThePresentedOperation :
    (fixture.resetIn = false ∧ fixture.pos = .idle ∧ fixture.bench = none ∧ fixture.port = []) ∧
    (∃ s : State, s.resetIn = false ∧ s.pos = .idle ∧ s.bench = none ∧ s.port = 0x1000 :: [0x3000]) ∧
    (∃ s : State, s.resetIn = false ∧ s.pos = .idle ∧ s.bench = some (.bus 0x1E42232) ∧
      decode (BenchWord.bus 0x1E42232).coded = .ok (.regWr 0xE422 0x32)) ∧
    (∃ s : State, s.resetIn = false ∧ s.pos = .idle ∧ s.bench = some (.image 0) ∧ decode (BenchWord.image 0).coded = .error .notDescriptor) :=
  ⟨by decide, ⟨{ fixture with port := [0x1000, 0x3000] }, by decide⟩, ⟨{ fixture with bench := some (.bus 0x1E42232) }, by decide⟩,
    ⟨{ fixture with bench := some (.image 0) }, by decide⟩⟩

theorem test_witness_StepPerformsTheStepOfItsPosition :
    (atStep .i8 .issue).resetIn = false ∧ stepAt (atStep .i8 .issue).pos (atStep .i8 .issue).wa.mode = some .stepI8M23 := by decide

theorem test_witness_RequestsAreHeldWhileNotReady : ∃ s t : State, s.resetIn = false ∧ s.pos ≠ .idle ∧ s.port ≠ [] ∧ step s = .next t :=
  ⟨{ atStep .w5 .issue with port := [0x1000] }, _, rfl, by decide, by decide, rfl⟩

theorem test_witness_ResetInputAbandonsTheOperation : { atStep .i5 .issue with resetIn := true }.resetIn = true := rfl

/-- Modes 1, 2, 3, and mode 0xFF under `as_mode1`. -/
theorem test_witness_IssueAcceptedStartsTheBuild :
    ∀ s ∈ [withMode 1 .refuse, withMode 2 .refuse, withMode 3 .refuse, withMode 0xFF .asMode1],
      s.pos = .idle ∧ s.wa.lba0 = some 0x78 ∧ s.wa.lba1 = some 0x56 ∧ s.wa.lba2 = some 0x34 ∧ s.wa.lba3 = some 0x12 ∧
      s.wa.cmdStatus = some 0xA5 ∧ (s.wa.mode = some 1 ∨ s.wa.mode = some 2 ∨ s.wa.mode = some 3 ∨ s.cfg.modeOther = .asMode1) := by decide

/-- Both clauses, modes 0 and 4. -/
theorem test_witness_IssueRefusesUnwrittenFieldsThenTheMode :
    (fresh.pos = .idle ∧ fresh.wa.lba0 = none) ∧
    (∀ m ∈ [(0 : Byte), 4, 0xFF], (withMode m .refuse).pos = .idle ∧ (withMode m .refuse).wa.mode = some m ∧
      issueFieldsWritten (withMode m .refuse).wa = true ∧ (withMode m .refuse).cfg.modeOther = .refuse ∧ m ≠ 1 ∧ m ≠ 2 ∧ m ≠ 3) := by decide

theorem test_witness_CheckBusyAndWaitEnterTheCheck :
    fixture.pos = .idle ∧ fixture.wa.cmdStatus = some 0xA5 ∧ fresh.pos = .idle ∧ fresh.wa.cmdStatus = none := by decide

theorem test_witness_SlotAddressLatchesAndAnswers : fixture.pos = .idle := rfl

/-- And the first and last reserved codes. -/
theorem test_witness_WaWriteStoresItsField : fixture.pos = .idle ∧ 10 < (11#4).toNat ∧ 10 < (15#4).toNat := by decide

/-- A field with a value, one without, and a reserved code. -/
theorem test_witness_WaReadAnswersItsField :
    fixture.pos = .idle ∧ fixture.wa.lba3 = some 0x12 ∧ fixture.wa.param0 = none ∧ 10 < (11#4).toNat := by decide

theorem test_witness_ReservedRequestsAnswerReservedOp : fixture.pos = .idle := rfl

theorem test_witness_RefusalsChangeNothingElse : ∃ t, exec (.waRead 7) fresh = .next t ∧
    t.responses = fresh.responses ++ [.refused .unwrittenField] := ⟨_, rfl, rfl⟩

/-- The edges of the windows and of the address space are the address of no named register. -/
theorem test_fixture_unnamed (r : Reg) : (0xE441 : Address) ≠ fixtureAddrs.addrOf r ∧ (0xE442 : Address) ≠ fixtureAddrs.addrOf r ∧
    (0xE541 : Address) ≠ fixtureAddrs.addrOf r ∧ (0xE542 : Address) ≠ fixtureAddrs.addrOf r ∧ (0x0000 : Address) ≠ fixtureAddrs.addrOf r ∧
    (0xFFFF : Address) ≠ fixtureAddrs.addrOf r := by
  cases r <;> decide

/-- Each kind of address a read can name. -/
theorem test_witness_RegisterReadReturnsTheSelectedByte :
    (∀ r, (0xE541 : Address) ≠ fixture.cfg.addrs.addrOf r) ∧ (0xE402 : Address) = fixture.cfg.addrs.aStatusA ∧
    ((0xE425 : Address) = fixture.cfg.addrs.aTag ∧ fixture.cfg.tagReadback = .storage) ∧
    ((0xE420 : Address) = fixture.cfg.addrs.aTrigger ∧ fixture.cfg.triggerReadback = .storage) ∧ noTriggerReadback.triggerReadback = .draw ∧
    (0xE403 : Address) = fixture.cfg.addrs.addrOf .control ∧ (fixtureCfg .refuse .draw).tagReadback = .draw :=
  ⟨fun r => (test_fixture_unnamed r).2.2.1, rfl, ⟨rfl, rfl⟩, ⟨rfl, rfl⟩, rfl, rfl, rfl⟩

theorem test_witness_RegisterWriteStoresTheByte : ∀ r, (0xE442 : Address) ≠ fixture.cfg.addrs.addrOf r :=
  fun r => (test_fixture_unnamed r).2.1

/-- First and last byte of the windows, and the addresses just outside. -/
theorem test_witness_MultiplexerSelectsNamedThenWindows :
    (0xE442 : Address).toNat = 0xE442 + (0#3).toNat * 32 + (0#5).toNat ∧ (0xE541 : Address).toNat = 0xE442 + (7#3).toNat * 32 + (31#5).toNat ∧
    (0xE441 : Address).toNat < 0xE442 ∧ 0xE541 < (0xE542 : Address).toNat ∧ (∀ r, (0xE442 : Address) ≠ fixture.cfg.addrs.addrOf r) ∧
    (∀ r, (0xE541 : Address) ≠ fixture.cfg.addrs.addrOf r) ∧ (∀ r, (0xE441 : Address) ≠ fixture.cfg.addrs.addrOf r) ∧
    (∀ r, (0xE542 : Address) ≠ fixture.cfg.addrs.addrOf r) :=
  ⟨by decide, by decide, by decide, by decide, fun r => (test_fixture_unnamed r).2.1, fun r => (test_fixture_unnamed r).2.2.1,
    fun r => (test_fixture_unnamed r).1, fun r => (test_fixture_unnamed r).2.2.2.1⟩

/-- A mode with no trigger value of its own under each parameter. -/
theorem test_witness_TriggerSelectionAndIssueBits :
    ∀ m ∈ [(0 : Byte), 4, 0xFF], m ≠ 1 ∧ m ≠ 2 ∧ m ≠ 3 ∧ (withMode m .asMode1).cfg.modeOther = .asMode1 ∧
      (withMode m .refuse).cfg.modeOther = .refuse := by decide

theorem test_witness_DescriptorClosedForm :
    (((1 : Byte) = 1 ∧ (0x40 : Byte) = 0x40) ∧ ((3 : Byte) = 2 ∨ (3 : Byte) = 3)) ∧ ((4 : Byte) ≠ 1 ∧ (4 : Byte) ≠ 2 ∧ (4 : Byte) ≠ 3) ∧
    fixture.cfg.modeOther = .refuse ∧ (withMode 4 .asMode1).cfg.modeOther = .asMode1 := by decide

/-- Modes admitted under each parameter; and two LBAs with one image, two with different ones, and a mode without an image. -/
theorem test_witness_DescriptorForgetsLbaBits :
    (∀ m ∈ [(1 : Byte), 2, 3], admittedMode .refuse m = true) ∧ admittedMode .asMode1 0xFF = true ∧ admittedMode .refuse 4 = false ∧
    descOf .refuse 0x3F000000 2 = descOf .refuse 0x000000FC 3 ∧ descOf .refuse 0x3F000000 2 ≠ descOf .refuse 0x000000FC 1 ∧
    descOf .refuse 0x00000000 2 ≠ descOf .refuse 0x000000FC 2 := by decide

theorem test_witness_OpcodeStatusAndIssueSteps :
    (atStep .i1 .issue).pos = .i1 ∧ (atStep .i2 .issue).pos = .i2 ∧ (atStep .i3 .issue).pos = .i3 := by decide

theorem test_witness_TagReadModifyWriteSteps :
    (atStep .i4a .issue).pos = .i4a ∧ ((atStep .i4b .issue).pos = .i4b ∧ (atStep .i4b .issue).cfg.tagReadback = .storage) ∧
    { atStep .i4b .issue with cfg := fixtureCfg .refuse .draw }.cfg.tagReadback = .draw ∧ (atStep .i4c .issue).pos = .i4c := by decide

theorem test_witness_LbaPackingSteps :
    ((atStep .i5 .issue).pos = .i5 ∧ (atStep .i5 .issue).wa.lba1 = some 0x56) ∧
    ((atStep .i6 .issue).pos = .i6 ∧ (atStep .i6 .issue).wa.lba0 = some 0x78 ∧ (atStep .i6 .issue).wa.lba3 = some 0x12) ∧
    ((atStep .i7 .issue).pos = .i7 ∧ (atStep .i7 .issue).wa.lba2 = some 0x34) := by decide

theorem test_witness_TriggerStepWritesByMode : ∀ m ∈ [(1 : Byte), 2, 3],
    { withMode m .refuse with pos := .i8 }.pos = .i8 ∧ { withMode m .refuse with pos := .i8 }.wa.mode = some m ∧
    goesTo (exec (if m = 1 then .stepI8M1 else .stepI8M23) { withMode m .refuse with pos := .i8, curOp := .issue })
      (fun t => t.curOp == .issue) = true := by decide

/-- Each kind of mode at I8 and for BUILD, no mode, a step away from its position, and WAIT_COMPLETION without its operation and before it. -/
theorem test_witness_StepsOutsideTheirCase :
    (∀ mo ∈ [ModeOther.refuse, .asMode1], ∀ m ∈ [(0 : Byte), 1, 2, 3, 4], { withMode m mo with pos := .i8 }.pos = .i8 ∧
      { withMode m mo with pos := .i8 }.wa.mode = some m ∧ { withMode m mo with pos := .i8 }.cfg.modeOther = mo) ∧
    (∀ p ∈ [Pos.i1, .i8], { fresh with pos := p }.wa.mode = none ∧ { fresh with pos := p }.pos = p) ∧
    (atStep .i2 .issue).pos ≠ .i1 ∧ (atStep .c1a .none).curOp = .none ∧ (atStep .c1d .checkBusy).curOp = .checkBusy ∧
    (∀ p ∈ [Pos.idle, .i9], (atStep p .issue).pos ∉ [Pos.c1a, .c1b, .c1c, .c1d, .w2, .w3a, .w3b, .w4, .w5, .w6, .w7]) := by decide

theorem test_witness_OperationCounterStep : (atStep .i9 .issue).pos = .i9 := rfl

/-- Each clause: the field its step reads has no value. -/
theorem test_witness_LbaAndStatusStepsReadUnwrittenFieldsAsDraws :
    (∀ p ∈ [Pos.i5, .i6, .i7, .w2], { fresh with pos := p }.pos = p) ∧ fresh.wa.lba0 = none ∧ fresh.wa.lba1 = none ∧ fresh.wa.lba2 = none ∧
    fresh.wa.lba3 = none ∧ fresh.wa.cmdStatus = none ∧ { fresh.wa with lba3 := some 0x12 }.lba0 = none ∧
    { fresh.wa with lba0 := some 0x78 }.lba3 = none := by decide

/-- The three kinds of mode, and each read-back of TAG. -/
theorem test_witness_BuildMakesItsTenTransactions :
    (∀ s ∈ [withMode 1 .refuse, withMode 2 .refuse, withMode 3 .refuse, withMode 0xFF .asMode1],
      { s with pos := .i1 }.pos = .i1 ∧ s.cfg.tagReadback = .storage ∧ s.wa.lba0 = some 0x78 ∧ s.wa.lba1 = some 0x56 ∧
      s.wa.lba2 = some 0x34 ∧ s.wa.lba3 = some 0x12 ∧
      (s.wa.mode = some 1 ∨ s.wa.mode = some 2 ∨ s.wa.mode = some 3 ∨ s.wa.mode = some 0xFF ∧ s.cfg.modeOther = .asMode1)) ∧
    { atStep .i1 .issue with cfg := fixtureCfg .refuse .draw }.cfg.tagReadback = .draw := by decide

theorem test_witness_CheckReadsInOrder :
    (atStep .c1a .wait).pos = .c1a ∧ (atStep .c1b .wait).pos = .c1b ∧ (atStep .c1c .wait).pos = .c1c := by decide

/-- Idle and busy samples, for each operation; the fixture's temporaries are clear, so the last sample decides. -/
theorem test_witness_CheckDecidesOnFourSamples : ∀ op ∈ [CurOp.none, .issue, .checkBusy, .wait], ∀ v ∈ [(0xF7 : Byte), 0x08],
    { atStep .c1d op with env := [v] }.pos = .c1d ∧ { atStep .c1d op with env := [v] }.curOp = op ∧
    (v.getLsbD 3 = true ↔ (atStep .c1d op).tmp.a1.getLsbD 1 = true ∨ (atStep .c1d op).tmp.b.getLsbD 0 = true ∨
      (atStep .c1d op).tmp.a2.getLsbD 2 = true ∨ { atStep .c1d op with env := [v] }.drawn.getLsbD 3 = true) := by decide

theorem test_witness_StandaloneCheckBusyChangesOnlyTemporaries : fresh.resetIn = false ∧ fresh.pos = .idle := by decide

theorem test_witness_PulseSetsBitZeroOnly : (atStep .w3a .wait).pos = .w3a ∧ (atStep .w3b .wait).pos = .w3b := by decide

theorem test_witness_WaitStepsFromControlToSuccess :
    ((atStep .w2 .wait).pos = .w2 ∧ (atStep .w2 .wait).wa.cmdStatus = some 0xA5) ∧ (atStep .w4 .wait).pos = .w4 ∧
    (atStep .w5 .wait).pos = .w5 ∧ (atStep .w6 .wait).pos = .w6 ∧ (atStep .w7 .wait).pos = .w7 := by decide

/-- The four clauses: an idle check with a clear pulse and with a set one, a busy check, a set pulse at W4. -/
theorem test_witness_WaitCompletionRunsToItsEndOrATurn :
    (atStep .c1a .wait).curOp = .wait ∧ (atStep .c1a .wait).pos = .c1a ∧ (atStep .c1a .wait).wa.cmdStatus = some 0xA5 ∧
    (∀ p ∈ [(0xFE : Byte), 0x01], { atStep .c1a .wait with env := [0x0C, 0xFE, 0x0A, 0x06, 0x7E, p] }.env =
      [0x0C, 0xFE, 0x0A, 0x06, 0x7E, p] ++ []) ∧
    busyOfSamples 0x0C 0xFE 0x0A 0x06 = false ∧ (0xFE : Byte).getLsbD 0 = false ∧
    busyOfSamples 0x00 0x01 0x00 0x00 = true ∧
    (atStep .w4 .wait).pos = .w4 ∧ { atStep .w4 .wait with env := [0x01] }.env = 0x01 :: [] ∧ (0x01 : Byte).getLsbD 0 = true := by decide

/-- A position of each phase, with an operation that can be there. -/
theorem test_witness_PhaseFollowsThePosition : sequencerFits fixture ∧ sequencerFits (atStep .i1 .issue) ∧ sequencerFits (atStep .i9 .issue) ∧
    sequencerFits (atStep .c1d .checkBusy) ∧ sequencerFits (atStep .w6 .wait) ∧ sequencerFits (atStep .w7 .issue) := by decide

theorem test_witness_PhasesFollowTheTable : ∃ t, sequencerFits (atStep .i9 .issue) ∧ (atStep .i9 .issue).resetIn = false ∧
    step (atStep .i9 .issue) = .next t := ⟨_, by decide, rfl, rfl⟩

/-- The end of an ISSUE: a state in which nearly every clause of the invariant says something. -/
def late : State :=
  { atStep .w6 .issue with
    saHi := 0xE4
    saLo := 0xE2
    saSet := true
    tmp := { fixture.tmp with t := 0x04, r := 0x7E }
    wa := { fixture.wa with opCounter := some 5 }
    regs := {
      control := 0xA5, busyB := 0x7F, trigger := 0x80, opcode := 0x32, cmdStatus := 0x90, issue := 0x01, tag := 0x14
      lbaR0 := 0x56, lbaR1 := 0x78, lbaR2 := 0xD0 } }

theorem late_consistent : Consistent late := by
  refine ⟨by decide, ⟨fun _ => ⟨rfl, 2, rfl, rfl⟩, fun h => by cases h⟩, fun _ => ⟨5, by decide⟩, fun _ => ?_, ?_⟩
  · refine ⟨fun _ => rfl, fun _ => rfl, fun _ => rfl, by decide, by decide, fun _ => ⟨by decide, fun _ => rfl⟩, fun _ => rfl,
      fun _ => ⟨0x78, 0x12, rfl, rfl, by decide⟩, fun _ => ⟨0x34, rfl, by decide⟩, fun _ => by decide, fun _ => rfl⟩
  · exact ⟨fun _ => rfl, fun _ => by decide, fun _ => by decide, fun h => absurd h (by decide)⟩

theorem test_witness_EveryStepKeepsTheInvariant : ∃ t, Consistent late ∧ step late = .next t := ⟨_, late_consistent, rfl⟩

/-- With an image on the bench that is a descriptor. -/
theorem test_witness_NoStopUnderTheInvariant : Consistent { late with bench := some (.image 0x329001145678D080) } ∧
    decode (.image 0x329001145678D080) = .ok (.descRwM23 0x56 0x78 0xD0) := ⟨late_consistent, by decide⟩

/-- A request at IDLE; a position without a transaction, one with a read, one with a write. -/
theorem test_witness_TransactionsStayInTheAccessMatrix :
    (fixture.pos = .idle ∧ fixture.bench = none ∧ goesTo (step { fixture with port := [0x500D] }) (fun t => t.bench == none) = true) ∧
    (∀ p ∈ [Pos.i9, .w3a, .w2],
      (atStep p .issue).resetIn = false ∧ (atStep p .issue).pos ≠ .idle ∧ goesTo (step (atStep p .issue)) (fun _ => true) = true) := by decide

theorem test_witness_HistoryAndResponsesOnlyGrow : ∃ t, exec .stepW7 (atStep .w7 .wait) = .next t ∧ t.responses ≠ [] :=
  ⟨_, rfl, by decide⟩

/-- Each field is changed by some operation. -/
theorem test_witness_FieldsAreWrittenOnlyByTheirOperations :
    goesTo (exec .stepW6 (atStep .w6 .wait)) (fun t => t.wa.slotIndex != fixture.wa.slotIndex) = true ∧
    goesTo (exec .opcntSet fixture) (fun t => t.wa.opCounter != fixture.wa.opCounter) = true ∧
    goesTo (exec .stateAdvance fixture) (fun t => t.wa.cmdState != fixture.wa.cmdState) = true ∧
    goesTo (exec (.waWrite 3 0) fixture) (fun t => t.wa.cmdStatus != fixture.wa.cmdStatus) = true ∧
    goesTo (exec (.waWrite 4 0) fixture) (fun t => t.wa.mode != fixture.wa.mode) = true ∧
    goesTo (exec (.waWrite 5 0) fixture) (fun t => t.wa.param0 != fixture.wa.param0) = true ∧
    goesTo (exec (.waWrite 6 0) fixture) (fun t => t.wa.param1 != fixture.wa.param1) = true ∧
    goesTo (exec (.waWrite 7 0) fixture) (fun t => t.wa.lba0 != fixture.wa.lba0) = true ∧
    goesTo (exec (.waWrite 8 0) fixture) (fun t => t.wa.lba1 != fixture.wa.lba1) = true ∧
    goesTo (exec (.waWrite 9 0) fixture) (fun t => t.wa.lba2 != fixture.wa.lba2) = true ∧
    goesTo (exec (.waWrite 10 0) fixture) (fun t => t.wa.lba3 != fixture.wa.lba3) = true := by decide

/-- The latch changed, and a step of an operation in progress. -/
theorem test_witness_UnreadStateNeverMatters :
    goesTo (exec .slotAddress fixture) (fun t => t.saHi != fixture.saHi) = true ∧
    (late.resetIn = false ∧ late.pos ≠ .idle ∧ goesTo (step late) (fun _ => true) = true) := by decide

theorem test_witness_ModesTwoAndThreeAreAlike : ∃ t, (atStep .i8 .issue).resetIn = false ∧ (atStep .i8 .issue).pos ≠ .idle ∧
    (atStep .i8 .issue).wa.mode = some 2 ∧ step (atStep .i8 .issue) = .next t := ⟨_, rfl, by decide, rfl, rfl⟩

/-- A step that goes on, and one that ends the operation. -/
theorem test_witness_OneAnswerPerAcceptedRequest :
    (Consistent late ∧ late.resetIn = false ∧ late.pos ≠ .idle ∧ ∃ t, step late = .next t ∧ t.pos ≠ .idle) ∧
    (∃ t, step (atStep .w7 .wait) = .next t ∧ t.pos = .idle) :=
  ⟨⟨late_consistent, rfl, by decide, _, rfl, by decide⟩, ⟨_, rfl, rfl⟩⟩

/-- P1, with the environment of V6.10 and P7, and with a byte read from TAG where it does not read back; the mode is the fixture's or, under
`as_mode1`, another. -/
theorem test_witness_IssueNetEffect :
    { fixture with port := [0x10FF] }.port = (1#4 ++ 0x0FF#12) :: [] ∧ fixture.bench = none ∧ fixture.resetIn = false ∧ fixture.pos = .idle ∧
    fixture.cfg.tagReadback = .storage ∧ (fixtureCfg .refuse .draw).tagReadback = .draw ∧ fixture.wa.lba0 = some 0x78 ∧
    fixture.wa.lba1 = some 0x56 ∧ fixture.wa.lba2 = some 0x34 ∧ fixture.wa.lba3 = some 0x12 ∧ fixture.wa.cmdStatus = some 0xA5 ∧
    fixture.wa.mode = some 2 ∧ ((withMode 4 .asMode1).wa.mode = some 4 ∧ (withMode 4 .asMode1).cfg.modeOther = .asMode1) ∧
    { fixture with env := [0x0C, 0xFE, 0x0A, 0x06, 0x7E, 0x00] }.env = [] ++ [0x0C, 0xFE, 0x0A, 0x06, 0x7E, 0x00] ++ [] ∧
    { fixture with env := [0xE4, 0x0C, 0xFE, 0x0A, 0x06, 0x7E, 0x00] }.env = [0xE4] ++ [0x0C, 0xFE, 0x0A, 0x06, 0x7E, 0x00] ++ [] ∧
    busyOfSamples 0x0C 0xFE 0x0A 0x06 = false ∧ (0x00 : Byte).getLsbD 0 = false := by decide

/-- V7.2 and V7.3 together: one busy check, and two polls of a set pulse. -/
theorem test_witness_WaitEndsAfterAnyNumberOfPolls :
    (atStep .c1a .wait).resetIn = false ∧ (atStep .c1a .wait).pos = .c1a ∧ (atStep .c1a .wait).curOp = .wait ∧
    (atStep .c1a .wait).wa.cmdStatus = some 0xA5 ∧
    (∀ c ∈ [((0x02 : Byte), (0x00 : Byte), (0x00 : Byte), (0x00 : Byte))], busyOfSamples c.1 c.2.1 c.2.2.1 c.2.2.2 = true) ∧
    busyOfSamples 0x00 0x00 0x00 0x00 = false ∧ (∀ x ∈ [(0x81 : Byte), 0x81], x.getLsbD 0 = true) ∧ (0x80 : Byte).getLsbD 0 = false ∧
    { atStep .c1a .wait with env := [0x02, 0x00, 0x00, 0x00, 0x00, 0x00, 0x00, 0x00, 0x80, 0x81, 0x81, 0x80] }.env =
      [((0x02 : Byte), (0x00 : Byte), (0x00 : Byte), (0x00 : Byte))].flatMap (fun c => [c.1, c.2.1, c.2.2.1, c.2.2.2]) ++
        [0x00, 0x00, 0x00, 0x00, 0x80] ++ [0x81, 0x81] ++ [0x80] ++ [] :=
  ⟨rfl, rfl, rfl, rfl, by simp [busyOfSamples, bitTest], by decide, by decide, by decide, by simp⟩

/-- P5 and V7.5: two busy checks by a latched error bit, and three set pulse bits, as the environment shows them. -/
theorem test_witness_PollsCanTurnForEver :
    ((atStep .c1a .issue).resetIn = false ∧ (atStep .c1a .issue).pos = .c1a ∧ (atStep .c1a .issue).curOp = .issue) ∧
    (∀ c ∈ List.replicate 2 ((0x04 : Byte), (0x00 : Byte), (0x04 : Byte), (0x04 : Byte)),
      busyOfSamples c.1 c.2.1 c.2.2.1 c.2.2.2 = true) ∧
    { atStep .c1a .issue with env := [0x04, 0x00, 0x04, 0x04, 0x04, 0x00, 0x04, 0x04, 0x13] }.env =
      (List.replicate 2 ((0x04 : Byte), (0x00 : Byte), (0x04 : Byte), (0x04 : Byte))).flatMap
        (fun c => [c.1, c.2.1, c.2.2.1, c.2.2.2]) ++ [0x13] ∧
    (atStep .w4 .issue).pos = .w4 ∧ (∀ x ∈ [(0x01 : Byte), 0x01, 0x81], x.getLsbD 0 = true) ∧
    { atStep .w4 .issue with env := [0x01, 0x01, 0x81, 0x13] }.env = [0x01, 0x01, 0x81] ++ [0x13] :=
  ⟨⟨rfl, rfl, rfl⟩, by simp [busyOfSamples, bitTest], rfl, rfl, by decide, rfl⟩

end Sys2Proof.Tests
end

section
/-! PROOFS. The invariant `Consistent` (R45, R143, R155): it holds right after reset, and every step keeps it. -/

namespace Sys2Proof.Machine

/-! ### States where nothing is past yet -/

theorem consistent_of_idle (s : State) (hp : s.pos = .idle) (hc : s.curOp = .none) (hl : latchIsASlot s) : Consistent s := by
  refine ⟨?_, ?_, hl, ?_, ?_⟩
  · simp [sequencerFits, hp, hc]
  · simp [operandsAdmitted, hc]
  · simp [descriptorSoFar, hc]
  · simp [waitSoFar, past, hp, posRank]

theorem consistent_of_issue_accepted (s : State) (hp : s.pos = .i1) (hc : s.curOp = .issue) (hw : issueFieldsWritten s.wa = true)
    (hm : ∃ m, s.wa.mode = some m ∧ admittedMode s.cfg.modeOther m = true) (hl : latchIsASlot s) : Consistent s := by
  refine ⟨?_, ?_, hl, ?_, ?_⟩
  · simp [sequencerFits, hp, hc]
  · simp [operandsAdmitted, hc, hw, hm]
  · simp [descriptorSoFar, past, hp, posRank]
  · simp [waitSoFar, past, hp, posRank]

theorem consistent_of_wait_entered (s : State) (hp : s.pos = .c1a) (hc : s.curOp = .checkBusy ∨ s.curOp = .wait)
    (hw : s.curOp = .wait → s.wa.cmdStatus.isSome = true) (hl : latchIsASlot s) : Consistent s := by
  have hissue : s.curOp ≠ .issue := by rintro e; simp [e] at hc
  have hnone : s.curOp ≠ .none := by rintro e; simp [e] at hc
  refine ⟨?_, ?_, hl, ?_, ?_⟩
  · simp [sequencerFits, hp, hnone, posRank]
  · exact ⟨fun e => absurd e hissue, hw⟩
  · exact fun e => absurd e hissue
  · simp [waitSoFar, past, hp, posRank]

/-- The two bytes of the latch are those of the address latched (R22). -/
theorem latchAddr_hi_lo (a : Address) : latchAddr (addrHi a) (addrLo a) = a := by
  rw [latchAddr, addrHi, addrLo, BitVec.extractLsb'_append_extractLsb'_eq_extractLsb' (by rfl)]
  simp

/-! ### The order of the positions -/

theorem posRank_injective : Function.Injective posRank := by
  intro p q h
  cases p <;> cases q <;> simp [posRank] at h ⊢

/-- An operation goes to the next position of the order (R23), but for the two polls that turn back (R121, R128). -/
def Advances (s t : State) : Prop :=
  posRank t.pos = posRank s.pos + 1 ∨ (s.pos = .c1d ∧ t.pos = .c1a) ∨ (s.pos = .w4 ∧ t.pos = .w4)

/-- A step that is past after an advance was past before, unless it is the one performed. -/
theorem Advances.past_before {s t : State} {p : Pos} (h : Advances s t) (hne : s.pos ≠ p) (hp : past p t) : past p s := by
  have hrank := posRank_injective.ne hne
  rcases h with h | ⟨hs, ht⟩ | ⟨hs, ht⟩
  · omega
  all_goals simp only [past, hs, ht, posRank] at hp ⊢; omega

/-- A position of the build is entered from the one before it only: no poll turns back into the build. -/
theorem Advances.from_pred {s t : State} {p q : Pos} (h : Advances s t) (hq : posRank q = posRank p + 1) (hb : posRank q < 12)
    (ht : t.pos = q) : s.pos = p := by
  subst ht
  rcases h with h | ⟨_, ht⟩ | ⟨_, ht⟩
  · exact posRank_injective (by omega)
  all_goals simp [ht, posRank] at hb

/-- The poll of the pulse is past only at W5. -/
theorem Advances.past_w4 {s t : State} (h : Advances s t) (hq : s.pos = .w4) (hp : past .w4 t) : t.pos = .w5 := by
  rcases h with h | ⟨_, ht⟩ | ⟨_, ht⟩
  · exact posRank_injective (by rw [h, hq]; rfl)
  all_goals simp [past, ht, posRank] at hp

/-! ### What a step of an operation in progress does to the fields of the invariant -/

/-- What a step at a position other than IDLE leaves in the fields the invariant speaks of: each is written at its own position and is
as before at every other. -/
structure StepWrites (s t : State) : Prop where
  cfg : t.cfg = s.cfg
  saHi : t.saHi = s.saHi
  saLo : t.saLo = s.saLo
  saSet : t.saSet = s.saSet
  /-- Only three fields of the work area can move (R113, R129, R130). -/
  wa : t.wa = { s.wa with opCounter := t.wa.opCounter, cmdState := t.wa.cmdState, slotIndex := t.wa.slotIndex }
  opCounter : t.wa.opCounter = if s.pos = .i9 then some opcntSentinel else s.wa.opCounter
  slotIndex : t.wa.slotIndex = if s.pos = .w6 then 0 else s.wa.slotIndex
  opcode : t.regs.opcode = if s.pos = .i1 then opcRw else s.regs.opcode
  cmdStatus : t.regs.cmdStatus = if s.pos = .i2 then stsRw else s.regs.cmdStatus
  issue : t.regs.issue = if s.pos = .i3 then issRw else s.regs.issue
  tag : t.regs.tag = if s.pos = .i4a then tagBase else if s.pos = .i4c then s.tmp.t ||| tagValid else s.regs.tag
  lbaR0 : t.regs.lbaR0 = if s.pos = .i5 then s.fieldValue s.wa.lba1 else s.regs.lbaR0
  lbaR1 : t.regs.lbaR1 = if s.pos = .i6 then
    combine (s.fieldValue s.wa.lba0) ((s.afterField s.wa.lba0).fieldValue s.wa.lba3) else s.regs.lbaR1
  lbaR2 : t.regs.lbaR2 = if s.pos = .i7 then combine 0 (s.fieldValue s.wa.lba2) else s.regs.lbaR2
  trigger : if s.pos = .i8 then s.trigger = some t.regs.trigger else t.regs.trigger = s.regs.trigger
  control : t.regs.control = if s.pos = .w2 then s.fieldValue s.wa.cmdStatus else s.regs.control
  busyB : t.regs.busyB = if s.pos = .w3b then (s.tmp.r &&& 0xFE) ||| 0x01 else s.regs.busyB
  tagRead : t.tmp.t = if s.pos = .i4b then s.regRead .tag else s.tmp.t
  busyRead : t.tmp.r = if s.pos = .w3a then s.drawn else s.tmp.r
  /-- The poll of the pulse goes on to W5 only with the bit seen clear (R128). -/
  pulseRead : if s.pos = .w4 then t.pos = .w5 → t.tmp.p.getLsbD 0 = false else t.tmp.p = s.tmp.p
  /-- The operation ends, or it goes on; a CHECK_BUSY does not go on from C1d (R121). -/
  moves : t.pos = .idle ∧ t.curOp = .none ∨
    t.pos ≠ .idle ∧ t.curOp = s.curOp ∧ Advances s t ∧ (s.curOp = .checkBusy → s.pos ≠ .c1d)

/-- The decision of C1d writes nothing of this but the position and the operation (R121). -/
theorem stepWrites_of_c1d (s t : State) (hq : s.pos = .c1d) (h : decideC1d (doC1dRead s) = .next t) : StepWrites s t := by
  rcases decideC1d_cases _ t h with ⟨_, rfl⟩ | ⟨hc, _, rfl⟩ | ⟨hc, _, rfl⟩
  · constructor <;> simp [hq, doC1dRead, State.afterRegRead]
  all_goals
    replace hc : s.curOp ≠ .checkBusy := by rintro e; simp [doC1dRead, State.afterRegRead, e] at hc
    constructor <;> simp [hq, hc, doC1dRead, State.afterRegRead, Advances, posRank]

theorem stepWrites_of_w4 (s : State) (hq : s.pos = .w4) : StepWrites s (doW4 s) := by
  cases hb : bitTest s.drawn 0
  · rw [doW4_pass s hb]
    constructor <;> simp [hq, Advances, posRank, bitTest] at hb ⊢
    exact hb
  · rw [doW4_turn s hb]
    constructor <;> simp [hq, Advances]

theorem stepWrites_of_step (s t : State) (hr : s.resetIn = false) (hp : s.pos ≠ .idle) (h : step s = .next t) : StepWrites s t := by
  rcases step_in_progress s t hr hp h with ⟨hq, rfl⟩ | ⟨hq, rfl⟩ | ⟨hq, rfl⟩ | ⟨hq, rfl⟩ | ⟨hq, rfl⟩ | ⟨hq, rfl⟩ | ⟨hq, rfl⟩ |
    ⟨hq, rfl⟩ | ⟨hq, rfl⟩ | ⟨hq, v, hv, rfl⟩ | ⟨hq, rfl⟩ | ⟨hq, rfl⟩ | ⟨hq, rfl⟩ | ⟨hq, rfl⟩ | ⟨hq, hd⟩ | ⟨hq, rfl⟩ | ⟨hq, rfl⟩ |
    ⟨hq, rfl⟩ | ⟨hq, rfl⟩ | ⟨hq, rfl⟩ | ⟨hq, rfl⟩ | ⟨hq, rfl⟩
  pick_goal 15
  · exact stepWrites_of_c1d s t hq hd -- the only step that can end before W7
  pick_goal 18
  · exact stepWrites_of_w4 s hq
  all_goals
    constructor <;> simp [*, Advances, posRank, doI1, doI2, doI3, doI4a, doI4b, doI4c, doI5, doI6, doI7, doI8, doI9, doC1a, doC1b,
      doC1c, doW2, doW3a, doW3b, doW5, doW6, doW7, State.regWrite, storeByte, State.afterRegRead, advanceState, resetSlot,
      setOpCounter]

/-! ### An operation that goes on keeps each part of the invariant -/

/-- A CHECK_BUSY stays in the check, a WAIT in the wait. -/
theorem Advances.sequencerFits_kept {s t : State} (h : Advances s t) (hop : t.curOp = s.curOp) (hs : s.pos ≠ .idle)
    (ht : t.pos ≠ .idle) (hend : s.curOp = .checkBusy → s.pos ≠ .c1d) (hfits : sequencerFits s) : sequencerFits t := by
  obtain ⟨hnone, hcheck, hwait⟩ := hfits
  have hturn : 12 ≤ posRank s.pos → 12 ≤ posRank t.pos := by
    rcases h with h | ⟨_, h⟩ | ⟨_, h⟩
    · omega
    all_goals simp [h, posRank]
  have hstays : s.curOp = .checkBusy → posRank t.pos ≤ 15 := by
    intro hc
    have hne : posRank s.pos ≠ 15 := posRank_injective.ne (hend hc)
    have hle := (hcheck hc).2
    rcases h with h | ⟨_, h⟩ | ⟨h, _⟩
    · omega
    · simp [h, posRank]
    · simp [h, posRank] at hle
  rw [sequencerFits, hop]
  exact ⟨iff_of_false (mt hnone.1 hs) ht, fun hc => ⟨hturn (hcheck hc).1, hstays hc⟩, fun hc => hturn (hwait hc)⟩

/-- At W2 the operation is an ISSUE or a WAIT, and both have been admitted with a status (R147, R150). -/
theorem cmdStatus_of_w2 {s : State} (hfits : sequencerFits s) (hadm : operandsAdmitted s) (hq : s.pos = .w2) :
    ∃ st, s.wa.cmdStatus = some st := by
  rw [← Option.isSome_iff_exists]
  obtain ⟨hnone, hcheck, -⟩ := hfits
  cases hc : s.curOp with
  | none => simp [hc, hq] at hnone
  | issue =>
    have hfields := (hadm.1 hc).1
    simp only [issueFieldsWritten, Bool.and_eq_true] at hfields
    exact hfields.2
  | checkBusy => simp [hc, hq, posRank] at hcheck
  | wait => exact hadm.2 hc

namespace StepWrites

variable {s t : State} (hw : StepWrites s t)
include hw

theorem trigger_eq : t.trigger = s.trigger := by
  rw [State.trigger, hw.cfg, hw.wa]; rfl

theorem latchIsASlot_kept (h : latchIsASlot s) : latchIsASlot t := by
  simpa only [latchIsASlot, hw.saHi, hw.saLo, hw.saSet] using h

theorem operandsAdmitted_kept (hop : t.curOp = s.curOp) (h : operandsAdmitted s) : operandsAdmitted t := by
  rw [operandsAdmitted, hop, hw.cfg, hw.wa]
  exact h

/-- Each clause is of a step that is past: it is the step just performed, or it was past before and its register is as it was. -/
theorem descriptorSoFar_kept (hop : t.curOp = s.curOp) (hadv : Advances s t) (h : descriptorSoFar s)
    (hadm : operandsAdmitted s) : descriptorSoFar t := by
  intro hissue
  rw [hop] at hissue
  obtain ⟨hopcode, hcmdStatus, hissueReg, htag, htagRead, htagSet, hlba1, hlba03, hlba2, htrig, hcount⟩ := h hissue
  have hfields := (hadm.1 hissue).1
  simp only [issueFieldsWritten, Bool.and_eq_true, Option.isSome_iff_exists] at hfields
  obtain ⟨⟨⟨⟨⟨⟨l0, h0⟩, l1, h1⟩, l2, h2⟩, l3, h3⟩, -⟩, -⟩ := hfields
  have htagAt : t.pos = .i4b → s.pos = .i4a := hadv.from_pred rfl (by decide)
  have htagReadAt : t.pos = .i4c → s.pos = .i4b := hadv.from_pred rfl (by decide)
  rw [hw.trigger_eq, hw.cfg, hw.opcode, hw.cmdStatus, hw.issue, hw.tag, hw.lbaR0, hw.lbaR1, hw.lbaR2, hw.opCounter, hw.tagRead, hw.wa]
  refine ⟨fun hp => ?_, fun hp => ?_, fun hp => ?_, fun hp => ?_, fun hp => ?_, fun hp => ?_, fun hp => ?_, fun hp => ?_,
    fun hp => ?_, fun hp => ?_, fun hp => ?_⟩
  · split
    · rfl
    · exact hopcode (hadv.past_before ‹_› hp)
  · split
    · rfl
    · exact hcmdStatus (hadv.past_before ‹_› hp)
  · split
    · rfl
    · exact hissueReg (hadv.past_before ‹_› hp)
  · rcases hp with hp | hp
    · simp [htagAt hp, tagBase]
    · simp [htagReadAt hp, htag]
  · intro hr
    simp [htagReadAt hp, regRead_tag, hr, htag]
  · rcases eq_or_ne s.pos .i4c with hq | hq
    · refine ⟨by simp [hq, tagValid], fun hr => ?_⟩
      simp [hq, htagRead hq hr, tagValid]
    · have hpast := hadv.past_before hq hp
      have hne : s.pos ≠ .i4a := by rintro e; simp [past, e, posRank] at hpast
      simpa only [if_neg hq, if_neg hne] using htagSet hpast
  · split
    · simp [h1]
    · exact hlba1 (hadv.past_before ‹_› hp)
  · split
    · exact ⟨l0, l3, h0, h3, by simp [h0, h3]⟩
    · exact hlba03 (hadv.past_before ‹_› hp)
  · split
    · exact ⟨l2, h2, by simp [h2]⟩
    · exact hlba2 (hadv.past_before ‹_› hp)
  · have := hw.trigger
    split at this
    · exact this
    · rw [this]; exact htrig (hadv.past_before ‹_› hp)
  · split
    · rfl
    · exact hcount (hadv.past_before ‹_› hp)

/-- As for the descriptor, each clause is of the step just performed or of one past before; BUSY_B's also needs that no later step reads `r`
again. -/
theorem waitSoFar_kept (hadv : Advances s t) (h : waitSoFar s) (hadm : operandsAdmitted s) (hfits : sequencerFits s) : waitSoFar t := by
  obtain ⟨hcontrol, hbusyB, hpulse, hslot⟩ := h
  rw [waitSoFar, hw.control, hw.busyB, hw.slotIndex, hw.busyRead, hw.wa]
  refine ⟨fun hp => ?_, fun hp => ?_, fun hp => ?_, fun hp => ?_⟩
  · split
    · obtain ⟨st, hst⟩ := cmdStatus_of_w2 hfits hadm ‹_›
      simp [hst]
    · exact hcontrol (hadv.past_before ‹_› hp)
  · rcases eq_or_ne s.pos .w3b with hq | hq
    · simp [hq]
    · have hpast := hadv.past_before hq hp
      have hne : s.pos ≠ .w3a := by rintro e; simp [past, e, posRank] at hpast
      simpa only [if_neg hq, if_neg hne] using hbusyB hpast
  · have hread := hw.pulseRead
    split at hread
    next hq => exact hread (hadv.past_w4 hq hp)
    next hq => rw [hread]; exact hpulse (hadv.past_before hq hp)
  · split
    · rfl
    · exact hslot (hadv.past_before ‹_› hp)

end StepWrites

/-! ### Every step keeps the invariant -/

theorem consistent_of_step_in_progress (s t : State) (hs : Consistent s) (hr : s.resetIn = false) (hp : s.pos ≠ .idle)
    (h : step s = .next t) : Consistent t := by
  obtain ⟨hfits, hadm, hlatch, hdesc, hwait⟩ := hs
  have hw := stepWrites_of_step s t hr hp h
  rcases hw.moves with ⟨ht, hop⟩ | ⟨ht, hop, hadv, hend⟩
  · exact consistent_of_idle t ht hop (hw.latchIsASlot_kept hlatch)
  · exact ⟨hadv.sequencerFits_kept hop hp ht hend hfits, hw.operandsAdmitted_kept hop hadm, hw.latchIsASlot_kept hlatch,
      hw.descriptorSoFar_kept hop hadv hdesc hadm, hw.waitSoFar_kept hadv hwait hadm hfits⟩

/-- A request keeps the latch or sets it to a slot's address, and begins no operation whose operands it has not admitted. -/
theorem consistent_of_request (s t : State) (w : ReqWord) (hp : s.pos = .idle) (hc : s.curOp = .none) (hl : latchIsASlot s)
    (h : exec (decodeReq w) s = .next t) : Consistent t := by
  rcases request_cases s t w hp h with ⟨x, rfl⟩ | ⟨f, d, rfl⟩ | rfl | ⟨hw, hm, rfl⟩ | rfl | ⟨hw, rfl⟩
  · exact consistent_of_idle _ hp hc hl
  · exact consistent_of_idle _ hp hc hl
  · exact consistent_of_idle _ hp hc fun _ => ⟨s.wa.slotIndex, latchAddr_hi_lo _⟩
  · exact consistent_of_issue_accepted _ rfl rfl hw hm hl
  · exact consistent_of_wait_entered _ rfl (.inl rfl) nofun hl
  · exact consistent_of_wait_entered _ rfl (.inr rfl) (fun _ => hw) hl

theorem consistent_of_bench (s t : State) (w : BenchWord) (i : Instr) (hp : s.pos = .idle) (hc : s.curOp = .none)
    (hl : latchIsASlot s) (hd : decode w.coded = .ok i) (h : exec i s = .next t) : Consistent t := by
  rcases bench_cases i s t w hd h with ⟨a, x, rfl⟩ | ⟨a, v, rfl⟩ | ⟨x, rfl⟩
  · exact consistent_of_idle _ (by simpa [State.afterMemRead]) (by simpa [State.afterMemRead])
      (by simpa [latchIsASlot, State.afterMemRead] using hl)
  · exact consistent_of_idle _ hp hc hl
  · exact consistent_of_idle _ hp hc hl

/-! ### The obligations -/

/-- Settles O49: the machine is at IDLE with no operation and a latch without a value. -/
theorem invariantHoldsAtReset : Obligations.InvariantHoldsAtReset :=
  consistent_of_idle State.reset rfl rfl nofun

/-- Settles O50, by what a step can be: reset, a step of the operation in progress, waiting, a request of HOST, or a bench word. -/
theorem everyStepKeepsTheInvariant : Obligations.EveryStepKeepsTheInvariant := by
  intro s t hs h
  have ⟨⟨hnone, _⟩, _, hlatch, _⟩ := hs
  rcases step_next_cases s t h with ⟨_, rfl⟩ | ⟨hr, hp, _⟩ | ⟨_, _, _, _, rfl⟩ | ⟨_, hp, _, w, rest, _, hx⟩ |
    ⟨_, hp, w, i, _, hd, hx⟩
  · exact consistent_of_idle _ rfl rfl nofun
  · exact consistent_of_step_in_progress s t hs hr hp h
  · exact hs
  · exact consistent_of_request { s with port := rest } t w hp (hnone.2 hp) hlatch hx
  · exact consistent_of_bench { s with bench := none } t w i hp (hnone.2 hp) hlatch hd hx

end Sys2Proof.Machine
end

section
/-! PROOFS. The register file's read (R93): a draw or the stored byte of what the address selects. Progress: from a state of the invariant a
step answers a next state (R52, R156 to R158). -/

namespace Sys2Proof.Machine

/-! ### A read of the register file -/

/-- A read of what reads as a draw takes the draw and delivers it (R93, R43). -/
theorem exec_regRd_of_draw (s : State) (addr : Address) (sel : Selection) (hsel : muxSel s.cfg.addrs addr = sel)
    (hdraw : readIsDraw s.cfg sel = true) : exec (.regRd addr) s = .next { s.afterDraw with
      history := s.history ++ [.read addr s.drawn], result := .byte s.drawn } := by
  simp [exec, execRegRd, State.memRead, State.afterMemRead, hsel, State.valueOf, State.afterReadOf, hdraw, State.log, State.deliver]

/-- A read of a register that reads back delivers the stored byte and takes no draw (R93, R42). -/
theorem exec_regRd_of_stored (s : State) (r : Reg) (hstored : readIsDraw s.cfg (.reg r) = false) :
    exec (.regRd (s.cfg.addrs.addrOf r)) s = .next { s with
      history := s.history ++ [.read (s.cfg.addrs.addrOf r) (storedByte s.regs (.reg r))]
      result := .byte (storedByte s.regs (.reg r)) } := by
  simp [exec, execRegRd, afterRegRead_eq, State.regRead, State.valueOf, hstored, State.log, State.deliver]

/-- An address no register has reads as a draw, in a window or outside (R60, R40). -/
theorem readIsDraw_unnamed (cfg : Params) (addr : Address) (h : ∀ r, addr ≠ cfg.addrs.addrOf r) :
    readIsDraw cfg (muxSel cfg.addrs addr) = true := by
  rw [muxSel_unnamed _ _ h]
  split <;> rfl

/-- Settles O18, by whether what the address selects reads as a draw. -/
theorem registerReadReturnsTheSelectedByte : Obligations.RegisterReadReturnsTheSelectedByte := by
  intro s addr
  refine ⟨?_, ?_, ?_, ?_⟩
  · rintro (rfl | rfl | ⟨rfl, htag⟩ | ⟨rfl, htrigger⟩ | hunnamed)
    · exact exec_regRd_of_draw s _ _ (muxSel_addrOf _ .statusA) rfl
    · exact exec_regRd_of_draw s _ _ (muxSel_addrOf _ .busyB) rfl
    · exact exec_regRd_of_draw s _ _ (muxSel_addrOf _ .tag) (by simp [readIsDraw, htag])
    · exact exec_regRd_of_draw s _ _ (muxSel_addrOf _ .trigger) (by simp [readIsDraw, htrigger])
    · exact exec_regRd_of_draw s _ _ rfl (readIsDraw_unnamed s.cfg addr hunnamed)
  · rintro p hp rfl
    simp only [List.mem_cons, List.not_mem_nil, or_false] at hp
    rcases hp with rfl | rfl | rfl | rfl | rfl | rfl | rfl <;> exact exec_regRd_of_stored s _ rfl
  · rintro rfl hstorage
    exact exec_regRd_of_stored s .trigger (by simp [readIsDraw, hstorage])
  · rintro rfl hstorage
    exact exec_regRd_of_stored s .tag (by simp [readIsDraw, hstorage])

/-! ### What is performed at IDLE, as an equation -/

/-- With nothing presented the block waits (R174). -/
theorem step_waiting (s : State) (hr : s.resetIn = false) (hp : s.pos = .idle) (hb : s.bench = none) (hq : s.port = []) :
    step s = .next s := by
  simp [step, fetch, hr, hp, stepAt, fetchIdle, hb, fetchPort, hq]

/-- HOST's next request is taken from the port and performed (R144). -/
theorem step_of_request (s : State) (w : ReqWord) (rest : List ReqWord) (hr : s.resetIn = false) (hp : s.pos = .idle)
    (hb : s.bench = none) (hq : s.port = w :: rest) : step s = exec (decodeReq w) { s with port := rest } := by
  simp [step, fetch, hr, hp, stepAt, fetchIdle, hb, fetchPort, hq]

/-- A bench word that names an operation is taken and performed (log 2). -/
theorem step_of_bench (s : State) (w : BenchWord) (i : Instr) (hr : s.resetIn = false) (hp : s.pos = .idle) (hb : s.bench = some w)
    (hd : decode w.coded = .ok i) : step s = exec i { s with bench := none } := by
  simp [step, fetch, hr, hp, stepAt, fetchIdle, hb, hd]

/-! ### Progress -/

/-- A request that is not accepted leaves the state (R144), so it answers a next state where accepting it does. -/
theorem whenReady_progress (s : State) (k : State → Answer) (h : ∃ t, k s = .next t) : ∃ t, whenReady s k = .next t := by
  by_cases hp : s.pos = .idle
  · rwa [whenReady_ready s k hp]
  · exact ⟨s, whenReady_busy s k hp⟩

/-- Every request is answered or begins its operation; none stops the machine (R144, R156). -/
theorem exec_request_progress (s : State) (w : ReqWord) : ∃ t, exec (decodeReq w) s = .next t := by
  rcases decodeReq_cases w with e | e | e | e | ⟨f, d, e⟩ | ⟨f, e⟩ | e | e | ⟨o, e⟩
  all_goals
    simp only [e, exec, execIssue, execCheckBusy, execWait, execSlotAddress, execWaWrite, execWaRead, execReservedOp0, execReservedOp7,
      execReservedOp8F, reservedRequest]
    apply whenReady_progress
  · simp only [acceptIssue]
    repeat' split
    all_goals exact ⟨_, rfl⟩
  · exact ⟨_, rfl⟩
  · simp only [acceptWait]
    split <;> exact ⟨_, rfl⟩
  · exact ⟨_, rfl⟩
  · split <;> exact ⟨_, rfl⟩
  · repeat' split
    all_goals exact ⟨_, rfl⟩
  all_goals exact ⟨_, rfl⟩

/-- A bus access and a reported image never fail (R52, R93, R94). -/
theorem exec_bench_progress (s : State) (w : BenchWord) (i : Instr) (hd : decode w.coded = .ok i) : ∃ t, exec i s = .next t := by
  rcases decode_bench_cases w i hd with ⟨a, rfl⟩ | ⟨a, v, rfl⟩ | ⟨b, c, d, rfl⟩ | ⟨b, c, d, rfl⟩ <;> exact ⟨_, rfl⟩

/-- At IDLE the block waits, or performs what is presented. -/
theorem step_idle_progress (s : State) (hr : s.resetIn = false) (hp : s.pos = .idle)
    (hbench : ∀ w : Image, s.bench = some (.image w) → ∃ i, decode (.image w) = .ok i) : ∃ t, step s = .next t := by
  cases hb : s.bench with
  | none =>
    cases hq : s.port with
    | nil => exact ⟨s, step_waiting s hr hp hb hq⟩
    | cons w rest =>
      rw [step_of_request s w rest hr hp hb hq]
      exact exec_request_progress _ w
  | some w =>
    have hd : ∃ i, decode w.coded = .ok i := by
      cases w with
      | bus b => exact ⟨decodeBus b, rfl⟩
      | image w => exact hbench w hb
    obtain ⟨i, hd⟩ := hd
    rw [step_of_bench s w i hr hp hb hd]
    exact exec_bench_progress _ w i hd

/-- The decision of C1d is defined for every operation (R121, R24). -/
theorem decideC1d_progress (s : State) (h : s.curOp ≠ .none) : ∃ t, decideC1d s = .next t := by
  cases hc : s.curOp with
  | none => exact absurd hc h
  | checkBusy => exact ⟨_, by rw [decideC1d, hc]⟩
  | issue => exact ⟨_, decideC1d_goes s (.inl hc)⟩
  | wait => exact ⟨_, decideC1d_goes s (.inr hc)⟩

/-- At I8 the operation is an ISSUE, and its mode has been admitted (R145, R146). -/
theorem mode_of_i8 {s : State} (hfits : sequencerFits s) (hadm : operandsAdmitted s) (hp : s.pos = .i8) :
    ∃ m, s.wa.mode = some m ∧ admittedMode s.cfg.modeOther m = true := by
  obtain ⟨hnone, hcheck, hwait⟩ := hfits
  cases hc : s.curOp with
  | none => simp [hc, hp] at hnone
  | issue => exact (hadm.1 hc).2
  | checkBusy => simp [hc, hp, posRank] at hcheck
  | wait => simp [hc, hp, posRank] at hwait

/-- Every step of an accepted operation can be performed: only I8 asks for its mode and C1d for its operation (R158). -/
theorem step_operation_progress (s : State) (hfits : sequencerFits s) (hadm : operandsAdmitted s) (hr : s.resetIn = false)
    (hne : s.pos ≠ .idle) : ∃ t, step s = .next t := by
  cases hp : s.pos with
  | idle => exact absurd hp hne
  | i1 => exact ⟨_, step_at_i1 s hr hp⟩
  | i2 => exact ⟨_, step_at_i2 s hr hp⟩
  | i3 => exact ⟨_, step_at_i3 s hr hp⟩
  | i4a => exact ⟨_, step_at_i4a s hr hp⟩
  | i4b => exact ⟨_, step_at_i4b s hr hp⟩
  | i4c => exact ⟨_, step_at_i4c s hr hp⟩
  | i5 => exact ⟨_, step_at_i5 s hr hp⟩
  | i6 => exact ⟨_, step_at_i6 s hr hp⟩
  | i7 => exact ⟨_, step_at_i7 s hr hp⟩
  | i8 =>
    obtain ⟨m, hm, ha⟩ := mode_of_i8 hfits hadm hp
    obtain ⟨v, -, hstep⟩ := step_at_i8 s m hr hp hm ha
    exact ⟨_, hstep⟩
  | i9 => exact ⟨_, step_at_i9 s hr hp⟩
  | c1a => exact ⟨_, step_at_c1a s hr hp⟩
  | c1b => exact ⟨_, step_at_c1b s hr hp⟩
  | c1c => exact ⟨_, step_at_c1c s hr hp⟩
  | c1d =>
    rw [step_at_c1d s hr hp]
    exact decideC1d_progress _ (by simpa [doC1dRead_eq] using mt hfits.1.1 hne)
  | w2 => exact ⟨_, step_at_w2 s hr hp⟩
  | w3a => exact ⟨_, step_at_w3a s hr hp⟩
  | w3b => exact ⟨_, step_at_w3b s hr hp⟩
  | w4 => exact ⟨_, step_at_w4 s hr hp⟩
  | w5 => exact ⟨_, step_at_w5 s hr hp⟩
  | w6 => exact ⟨_, step_at_w6 s hr hp⟩
  | w7 => exact ⟨_, step_at_w7 s hr hp⟩

/-- Settles O51: reset is always performed, and at IDLE and in an operation the step is defined. -/
theorem noStopUnderTheInvariant : Obligations.NoStopUnderTheInvariant := by
  intro s hs hbench
  obtain ⟨hfits, hadm, -⟩ := hs
  cases hr : s.resetIn with
  | true => exact ⟨_, step_of_reset s hr⟩
  | false =>
    rcases eq_or_ne s.pos .idle with hp | hp
    · exact step_idle_progress s hr hp hbench
    · exact step_operation_progress s hfits hadm hr hp

end Sys2Proof.Machine
end

section
/-! PROOFS. The register file's write (R94): the byte goes to what the address selects, and to no register where none is named. -/

namespace Sys2Proof.Machine

/-- A write at a named register's address stores the byte there; STATUS_A stores nothing (R94). -/
theorem exec_regWr_addrOf (s : State) (r : Reg) (v : Byte) :
    exec (.regWr (s.cfg.addrs.addrOf r) v) s = .next { s with
      regs := storeByte s.regs (.reg r) v
      history := s.history ++ [.write (s.cfg.addrs.addrOf r) v] } := by
  simp only [exec, execRegWr, memWrite_addrOf, regWrite_eq]

/-- What an address no register has selects stores nothing, in a window or outside (R94, R60, R40). -/
theorem storeByte_unnamed (m : AddressMap) (x : EngineRegs) (addr : Address) (v : Byte) (h : ∀ r, addr ≠ m.addrOf r) :
    storeByte x (muxSel m addr) v = x := by
  rw [muxSel_unnamed _ _ h]
  split <;> rfl

/-- Settles O19, by whether the address is one of the eleven named ones. -/
theorem registerWriteStoresTheByte : Obligations.RegisterWriteStoresTheByte := by
  intro s v
  refine ⟨fun p hp => ?_, fun addr hunnamed => ?_⟩
  · simp only [List.mem_cons, List.not_mem_nil, or_false] at hp
    rcases hp with rfl | rfl | rfl | rfl | rfl | rfl | rfl | rfl | rfl | rfl | rfl
    · exact exec_regWr_addrOf s .control v
    · exact exec_regWr_addrOf s .busyB v
    · exact exec_regWr_addrOf s .trigger v
    · exact exec_regWr_addrOf s .opcode v
    · exact exec_regWr_addrOf s .cmdStatus v
    · exact exec_regWr_addrOf s .issue v
    · exact exec_regWr_addrOf s .tag v
    · exact exec_regWr_addrOf s .lbaR0 v
    · exact exec_regWr_addrOf s .lbaR1 v
    · exact exec_regWr_addrOf s .lbaR2 v
    · exact exec_regWr_addrOf s .statusA v
  · simp [exec, execRegWr, State.memWrite, State.afterWriteOf, storeByte_unnamed _ _ _ _ hunnamed, State.setRegs, State.log]

end Sys2Proof.Machine
end

section
/-! PROOFS. The descriptor builder (41_descriptor_builder.md): what COMBINE and LBASPLIT compute (R99, R102), and what each step of
build_and_submit leaves at its position (R103 to R114). -/

namespace Sys2Proof.Machine

/-! ### COMBINE and LBASPLIT -/

/-- In a byte, the mask of R99 removes no bit the shift has not removed before it. -/
theorem shiftTwo_masked (x : Byte) : (x <<< 2) &&& (0xFC : Byte) = x <<< 2 := by
  revert x; decide

theorem combine_eq (v x : Byte) : combine v x = v ||| (x <<< 2) := by
  rw [combine, shiftTwo_masked]

/-- COMBINE into an empty byte is the shifted and masked source alone (R99, R111). -/
theorem combine_zero_left (x : Byte) : combine 0 x = (x <<< 2) &&& 0xFC := BitVec.zero_or

/-- The low two bits of a byte shifted by two are clear, its high six are the low six of the byte, and bits 7:6 of the byte are lost. -/
theorem shiftTwo_bits (x : Byte) : (x <<< 2).extractLsb' 0 2 = 0#2 ∧ (x <<< 2).extractLsb' 2 6 = x.extractLsb' 0 6 ∧
    (x &&& (0x3F : Byte)) <<< 2 = x <<< 2 := by
  revert x; decide

/-- Settles O22: every form follows from `combine v x = v ||| (x <<< 2)`, the laws of OR, and the bits of the shifted byte. -/
theorem combinePacksByOr : Obligations.CombinePacksByOr := by
  intro v x
  obtain ⟨hlow, hhigh, htop⟩ := shiftTwo_bits x
  refine ⟨fun _ => rfl, ?_, ?_, ?_, ?_, ?_, ?_, ?_, ?_, ?_⟩
  · rw [combine_eq, htop]
  · rw [combine_eq, BitVec.extractLsb'_or, hlow, BitVec.or_zero]
  · rw [combine_eq, BitVec.extractLsb'_or, hhigh]
  · simp [combine_eq]
  · rw [combine_eq]
    exact BitVec.allOnes_or
  · rw [combine_eq]
    ext i hi
    simp +contextual
  · exact combine_zero_left x
  · rw [combine_zero_left, shiftTwo_masked, hlow]
    rfl
  · rw [combine_eq, combine_eq, BitVec.or_assoc, BitVec.or_self]

/-- The four bytes of an LBA, highest first, are the LBA (R102). -/
theorem lbaBytes_append (l : Lba) : lbaByte3 l ++ lbaByte2 l ++ lbaByte1 l ++ lbaByte0 l = l := by
  simp only [lbaByte0, lbaByte1, lbaByte2, lbaByte3]
  rw [BitVec.extractLsb'_append_extractLsb'_eq_extractLsb' (by rfl), BitVec.extractLsb'_append_extractLsb'_eq_extractLsb' (by rfl),
    BitVec.extractLsb'_append_extractLsb'_eq_extractLsb' (by rfl)]
  simp

/-- Settles O24: the four bytes are those LBASPLIT takes. -/
theorem lbaSplitIsLittleEndian : Obligations.LbaSplitIsLittleEndian :=
  fun _ l => ⟨_, _, _, _, rfl, (lbaBytes_append l).symm⟩

/-! ### The steps I1 to I7 and I9 -/

/-- A step that is an effect and nothing more has, at its position, that effect. -/
theorem atPos_performs {p : Pos} {s t : State} {f : State → State} (hp : s.pos = p) (hf : f s = t) :
    atPos p s (fun s => .next (f s)) = .next t := by
  rw [atPos_here p s _ hp, hf]

/-- Settles O28, by what each of the three steps writes. -/
theorem opcodeStatusAndIssueSteps : Obligations.OpcodeStatusAndIssueSteps := fun s =>
  ⟨fun hp => atPos_performs hp (doI1_eq s), fun hp => atPos_performs hp (doI2_eq s), fun hp => atPos_performs hp (doI3_eq s)⟩

/-- Under `TAG_READBACK = storage` the read-modify-write of TAG reads the base 0x04 it has written, and leaves it with bit 4 set (R106 to
R108, D9). -/
theorem tagReadModifyWrite_storage (s : State) (h : s.cfg.tagReadback = .storage) :
    (doI4b (doI4a s)).tmp.t = tagBase ∧ (doI4c (doI4b (doI4a s))).regs.tag = tagBase ||| tagValid := by
  have ht : (doI4b (doI4a s)).tmp.t = tagBase := by rw [doI4b_storage (doI4a s) h]; rfl
  exact ⟨ht, by rw [doI4c_eq, ht]⟩

/-- Settles O29, by what each of the three steps does, and the three in a row under `storage`. -/
theorem tagReadModifyWriteSteps : Obligations.TagReadModifyWriteSteps := by
  intro s
  refine ⟨fun hp => atPos_performs hp (doI4a_eq s), fun hp hst => atPos_performs hp (doI4b_storage s hst),
    fun hp hdr => atPos_performs hp (doI4b_draw s hdr), fun hp => atPos_performs hp (doI4c_eq s), fun hp hst => ?_⟩
  obtain ⟨hread, hleft⟩ := tagReadModifyWrite_storage s hst
  have hread_pos : (doI4a s).pos = .i4b := rfl
  have hwrite_pos : (doI4b (doI4a s)).pos = .i4c := rfl
  exact ⟨doI4a s, doI4b (doI4a s), doI4c (doI4b (doI4a s)), atPos_performs hp rfl, atPos_performs hread_pos rfl, hread,
    atPos_performs hwrite_pos rfl, hleft⟩

/-- Settles O30: each of the three steps reads fields that have a value; `combine(0, lba2)` is the shifted byte alone (R99). -/
theorem lbaPackingSteps : Obligations.LbaPackingSteps := by
  intro s l0 l1 l2 l3
  refine ⟨fun hp h1 => atPos_performs hp (doI5_some s l1 h1), fun hp h0 h3 => atPos_performs hp (doI6_some s l0 l3 h0 h3),
    fun hp h2 => atPos_performs hp ?_⟩
  rw [doI7_some s l2 h2, combine_zero_left]

/-- Settles O33, by what I9 writes. -/
theorem operationCounterStep : Obligations.OperationCounterStep :=
  fun s hp => atPos_performs hp (doI9_eq s)

/-! ### The step I8 -/

/-- The mode selects the trigger value (R112, R100). -/
theorem trigger_of_mode {s : State} {m : Byte} (hm : s.wa.mode = some m) : s.trigger = trigSel s.cfg.modeOther m := by
  rw [State.trigger, hm]

/-- The row whose value the mode selects writes it (R112). -/
theorem stepI8With_selected {v : Byte} {s : State} (h : s.trigger = some v) : stepI8With v s = .next (doI8 v s) := by
  simp [stepI8With, h]

/-- A row of I8 that answers a next state has written its value (R112). -/
theorem stepI8With_next {v : Byte} {s t : State} (h : stepI8With v s = .next t) : t = doI8 v s := by
  unfold stepI8With at h
  repeat' split at h
  all_goals cases h
  rfl

/-- After either row of I8 an ISSUE is TRIGGERED (R112, R27). -/
theorem phase_after_i8 {v : Byte} {s t : State} (h : atPos .i8 s (stepI8With v) = .next t) (hop : s.curOp = .issue) :
    t.phase = .triggered := by
  obtain ⟨-, hrow⟩ := atPos_next _ _ _ _ h
  rw [stepI8With_next hrow, doI8_eq, State.phase, hop]
  rfl

/-- Settles O31, by the value the mode selects. -/
theorem triggerStepWritesByMode : Obligations.TriggerStepWritesByMode := by
  intro s m hp hm
  have htrigger := trigger_of_mode hm
  refine ⟨?_, ?_, ?_⟩
  · rintro rfl
    exact (atPos_here .i8 s _ hp).trans (stepI8With_selected htrigger)
  · intro h23
    exact (atPos_here .i8 s _ hp).trans (stepI8With_selected (htrigger.trans (if_pos h23)))
  · rintro t (h | h) hop
    · exact phase_after_i8 h hop
    · exact phase_after_i8 h hop

end Sys2Proof.Machine
end

section
/-! PROOFS. The busy and completion monitor (42_busy_completion.md): BUSYFN (R118), the decision of C1d (R121), the standalone CHECK_BUSY (R122,
R123), and the steps W2 to W7 (R125 to R131). -/

namespace Sys2Proof.Machine

/-! ### BUSYFN -/

/-- The mask 0x0E keeps the three bits of STATUS_A that BUSYFN tests, and 0x01 the one of BUSY_B. -/
theorem and_busyMaskA_eq_zero (a : Byte) :
    a &&& 0x0E = 0 ↔ a.getLsbD 1 = false ∧ a.getLsbD 2 = false ∧ a.getLsbD 3 = false := by
  revert a; decide

theorem and_busyMaskB_eq_zero (b : Byte) : b &&& 0x01 = 0 ↔ b.getLsbD 0 = false := by
  revert b; decide

theorem busyFn_eq_true_iff (a b : Byte) : busyFn a b = true ↔
    a.getLsbD 1 = true ∨ b.getLsbD 0 = true ∨ a.getLsbD 2 = true ∨ a.getLsbD 3 = true := by
  simp only [busyFn, bitTest_getLsbD, Bool.or_eq_true, or_assoc]
  rfl

theorem busyFn_eq_false_iff (a b : Byte) : busyFn a b = false ↔ a &&& 0x0E = 0 ∧ b &&& 0x01 = 0 := by
  rw [← Bool.not_eq_true, busyFn_eq_true_iff, and_busyMaskA_eq_zero, and_busyMaskB_eq_zero]
  simp only [not_or, Bool.not_eq_true]
  tauto

/-- Settles O36: the bit delivered is `busyFn a b`. -/
theorem busyIsTheOrOfFourBits : Obligations.BusyIsTheOrOfFourBits :=
  fun _ a b => ⟨busyFn a b, rfl, busyFn_eq_true_iff a b, busyFn_eq_false_iff a b⟩

/-! ### The decision of C1d -/

theorem busyOfSamples_eq_true_iff (a1 b a2 a3 : Byte) : busyOfSamples a1 b a2 a3 = true ↔
    a1.getLsbD 1 = true ∨ b.getLsbD 0 = true ∨ a2.getLsbD 2 = true ∨ a3.getLsbD 3 = true := by
  simp only [busyOfSamples, bitTest_getLsbD, Bool.or_eq_true, or_assoc]
  rfl

/-- The four samples C1d decides on: three read before, and the draw it takes itself (R120, R121). -/
theorem sampledBusy_doC1dRead (s : State) :
    sampledBusy (doC1dRead s).tmp = busyOfSamples s.tmp.a1 s.tmp.b s.tmp.a2 s.drawn := by
  rw [doC1dRead_eq, sampledBusy]

/-- The decision of a CHECK_BUSY (R121). -/
theorem decideC1d_answers (s : State) (h : s.curOp = .checkBusy) : decideC1d s = .next { s with
    responses := s.responses ++ [.okBusy (sampledBusy s.tmp)], curOp := .none, pos := .idle } := by
  rw [decideC1d, h]; rfl

/-- Settles O39: the decision for each value of `cur_op`, over the four samples. -/
theorem checkDecidesOnFourSamples : Obligations.CheckDecidesOnFourSamples := by
  intro s bz hp hbz
  have hsampled : sampledBusy (doC1dRead s).tmp = bz := by
    rw [sampledBusy_doC1dRead, Bool.eq_iff_iff, busyOfSamples_eq_true_iff, hbz]
  have hop : (doC1dRead s).curOp = s.curOp := by rw [doC1dRead_eq]; exact State.afterDraw_curOp s
  have hstep : exec .stepC1d s = decideC1d (doC1dRead s) := atPos_here .c1d s (fun s => decideC1d (doC1dRead s)) hp
  rw [hstep]
  refine ⟨fun hc => ?_, fun hc => ?_, fun hc => ?_⟩
  · rw [decideC1d_answers _ (hop.trans hc), hsampled, doC1dRead_eq, State.afterDraw_responses]
  · rw [decideC1d_goes _ (hop ▸ hc), hsampled, doC1dRead_eq]
  · rw [decideC1d, hop, hc]

/-! ### A standalone CHECK_BUSY -/

/-- The four reads of a check, from C1a: three steps, and the read of the fourth (R120). -/
def checkReads (s : State) : State := doC1dRead (doC1c (doC1b (doC1a s)))

/-- The fourth step of a check decides on its four reads (R121). -/
theorem runSteps_checkReads (s t : State) (hr : s.resetIn = false) (hp : s.pos = .c1a)
    (hd : decideC1d (checkReads s) = .next t) : runSteps 4 s = .next t := by
  rw [runSteps_succ 3 s _ (step_at_c1a s hr hp), runSteps_succ 2 _ _ (step_at_c1b _ (by simpa [doC1a_eq]) (by simp [doC1a_eq])),
    runSteps_succ 1 _ _ (step_at_c1c _ (by simpa [doC1a_eq, doC1b_eq]) (by simp [doC1b_eq]))]
  exact runSteps_one _ _ ((step_at_c1d _ (by simpa [doC1a_eq, doC1b_eq, doC1c_eq]) (by simp [doC1c_eq])).trans hd)

theorem checkReads_curOp (s : State) : (checkReads s).curOp = s.curOp := by
  simp [checkReads, doC1a_eq, doC1b_eq, doC1c_eq, doC1dRead_eq]

/-- The reads of a check change only the temporaries, the observer's value, the history and the draws (R120, R54). -/
theorem checkReads_frame (s : State) :
    (checkReads s).wa = s.wa ∧ (checkReads s).regs = s.regs ∧ (checkReads s).saHi = s.saHi ∧ (checkReads s).saLo = s.saLo ∧
    (checkReads s).saSet = s.saSet ∧ (checkReads s).cfg = s.cfg ∧ (checkReads s).port = s.port := by
  simp [checkReads, doC1a_eq, doC1b_eq, doC1c_eq, doC1dRead_eq]

theorem checkReads_responses (s : State) : (checkReads s).responses = s.responses := by
  simp [checkReads, doC1a_eq, doC1b_eq, doC1c_eq, doC1dRead_eq]

/-- Settles O40: accepted at IDLE, the operation is one check, whose decision answers. -/
theorem standaloneCheckBusyChangesOnlyTemporaries : Obligations.StandaloneCheckBusyChangesOnlyTemporaries := by
  intro s hr hp
  have haccept : exec .checkBusy s = .next ((s.setOp .checkBusy).goto .c1a) := by
    rw [exec, execCheckBusy, whenReady_ready s _ hp]
  exact ⟨_, _, 4, _, haccept, rfl, runSteps_checkReads _ _ hr rfl (decideC1d_answers _ (checkReads_curOp _)), rfl, rfl,
    congrArg (· ++ [_]) (checkReads_responses _), checkReads_frame _⟩

/-! ### The steps W2 to W7 -/

/-- The byte written back to BUSY_B has bit 0 set and bits 7:1 as read (R127). -/
theorem pulsedByte_bits (r : Byte) :
    ((r &&& 0xFE) ||| (0x01 : Byte)).getLsbD 0 = true ∧
    ((r &&& 0xFE) ||| (0x01 : Byte)).extractLsb' 1 7 = r.extractLsb' 1 7 := by
  revert r; decide

/-- Settles O41, by what each of the two steps does and the bits of the byte written. -/
theorem pulseSetsBitZeroOnly : Obligations.PulseSetsBitZeroOnly := fun s =>
  ⟨fun hp => atPos_performs hp (doW3a_eq s), fun hp =>
    ⟨_, (pulsedByte_bits s.tmp.r).1, (pulsedByte_bits s.tmp.r).2, atPos_performs hp (doW3b_eq s)⟩⟩

/-- Settles O42, by what each of the five steps does. -/
theorem waitStepsFromControlToSuccess : Obligations.WaitStepsFromControlToSuccess := by
  intro s
  refine ⟨fun st hp hst => atPos_performs hp (doW2_some s st hst), fun hp => atPos_performs hp (doW4_eq s),
    fun hp => ⟨s.wa.cmdState + 1, BitVec.toNat_add _ _, atPos_performs hp (doW5_eq s)⟩,
    fun hp => atPos_performs hp (doW6_eq s), fun hp => atPos_performs hp (doW7_eq s)⟩

end Sys2Proof.Machine
end

section
/-! PROOFS. WAIT_COMPLETION as one sequence (R132): the stretch it performs at once, from C1a to its end or to the poll that turns back (R139;
log 20). -/

namespace Sys2Proof.Machine

/-! ### One step of the stretch -/

/-- A step of the wait that neither ends it nor turns a poll back is followed by more of the stretch. -/
theorem runWait_goes_on {s t : State} (n : Nat) (hw : waitStep s = .next t) (ht : waitTurns s.pos t.pos = false) :
    runWait (n + 1) s = runWait n t := by
  simp [runWait, hw, ht]

/-- One that does is the last. -/
theorem runWait_stops {s t : State} (n : Nat) (hw : waitStep s = .next t) (ht : waitTurns s.pos t.pos = true) :
    runWait (n + 1) s = .next t := by
  simp [runWait, hw, ht]

/-- Performed for an ISSUE or a WAIT, WAIT_COMPLETION is a stretch of at most eleven steps (log 20). -/
theorem exec_waitCompletion {s : State} (hc : s.curOp = .issue ∨ s.curOp = .wait) : exec .waitCompletion s = runWait 11 s := by
  rcases hc with hc | hc <;> simp only [exec, execWaitCompletion, hc]

theorem waitStep_at_c1a {s : State} (hp : s.pos = .c1a) : waitStep s = .next (doC1a s) := by
  simp only [waitStep, hp, execStepC1a, atPos_here _ s _ hp]

theorem waitStep_at_c1b {s : State} (hp : s.pos = .c1b) : waitStep s = .next (doC1b s) := by
  simp only [waitStep, hp, execStepC1b, atPos_here _ s _ hp]

theorem waitStep_at_c1c {s : State} (hp : s.pos = .c1c) : waitStep s = .next (doC1c s) := by
  simp only [waitStep, hp, execStepC1c, atPos_here _ s _ hp]

theorem waitStep_at_c1d {s : State} (hp : s.pos = .c1d) : waitStep s = decideC1d (doC1dRead s) := by
  simp only [waitStep, hp, execStepC1d, atPos_here _ s _ hp]

theorem waitStep_at_w2 {s : State} (hp : s.pos = .w2) : waitStep s = .next (doW2 s) := by
  simp only [waitStep, hp, execStepW2, atPos_here _ s _ hp]

theorem waitStep_at_w3a {s : State} (hp : s.pos = .w3a) : waitStep s = .next (doW3a s) := by
  simp only [waitStep, hp, execStepW3a, atPos_here _ s _ hp]

theorem waitStep_at_w3b {s : State} (hp : s.pos = .w3b) : waitStep s = .next (doW3b s) := by
  simp only [waitStep, hp, execStepW3b, atPos_here _ s _ hp]

theorem waitStep_at_w4 {s : State} (hp : s.pos = .w4) : waitStep s = .next (doW4 s) := by
  simp only [waitStep, hp, execStepW4, atPos_here _ s _ hp]

theorem waitStep_at_w5 {s : State} (hp : s.pos = .w5) : waitStep s = .next (doW5 s) := by
  simp only [waitStep, hp, execStepW5, atPos_here _ s _ hp]

theorem waitStep_at_w6 {s : State} (hp : s.pos = .w6) : waitStep s = .next (doW6 s) := by
  simp only [waitStep, hp, execStepW6, atPos_here _ s _ hp]

theorem waitStep_at_w7 {s : State} (hp : s.pos = .w7) : waitStep s = .next (doW7 s) := by
  simp only [waitStep, hp, execStepW7, atPos_here _ s _ hp]

/-! ### The pieces of the stretch, over the bytes ENG shows -/

/-- What a check that reads the bytes `a1`, `b`, `a2`, `a3` leaves, but for the position it goes to (R120, R124). -/
def State.checked (s : State) (a1 b a2 a3 : Byte) (rest : List Byte) : State :=
  { s with
    env := rest
    tmp := { s.tmp with a1 := a1, b := b, a2 := a2, a3 := a3 }
    taxonomy := classifyFn (some (observedA a1 a2 a3, b))
    history := s.history ++ [.read s.cfg.addrs.aStatusA a1, .read s.cfg.addrs.aBusyB b, .read s.cfg.addrs.aStatusA a2,
      .read s.cfg.addrs.aStatusA a3] }

/-- What W2, W3a and W3b leave where BUSY_B reads `r` (R125 to R127). -/
def State.pulsed (s : State) (st r : Byte) (rest : List Byte) : State :=
  { s with
    env := rest
    tmp := { s.tmp with r := r }
    regs := { s.regs with control := st, busyB := (r &&& 0xFE) ||| 0x01 }
    history := s.history ++ [.write s.cfg.addrs.aControl st, .read s.cfg.addrs.aBusyB r,
      .write s.cfg.addrs.aBusyB ((r &&& 0xFE) ||| 0x01)]
    pos := .w4 }

theorem checkReads_of_env {s : State} {a1 b a2 a3 : Byte} {rest : List Byte} (he : s.env = a1 :: b :: a2 :: a3 :: rest) :
    checkReads s = { s.checked a1 b a2 a3 rest with pos := .c1d } := by
  simp [checkReads, State.checked, doC1a_eq, doC1b_eq, doC1c_eq, doC1dRead_eq, State.drawn, State.afterDraw, he]

/-- The decision of a check of an ISSUE or a WAIT (R121). -/
theorem decideC1d_checkReads {s : State} {a1 b a2 a3 : Byte} {rest : List Byte} (hc : s.curOp = .issue ∨ s.curOp = .wait)
    (he : s.env = a1 :: b :: a2 :: a3 :: rest) : decideC1d (checkReads s) = .next { s.checked a1 b a2 a3 rest with
      pos := if busyOfSamples a1 b a2 a3 then .c1a else .w2 } := by
  rw [decideC1d_goes _ ((checkReads_curOp s).symm ▸ hc), checkReads_of_env he]
  rfl

theorem runWait_reads (n : Nat) {s : State} (hp : s.pos = .c1a) : runWait (n + 3) s = runWait n (doC1c (doC1b (doC1a s))) := by
  rw [runWait_goes_on (n + 2) (waitStep_at_c1a hp) (by rw [hp]; rfl), runWait_goes_on (n + 1) (waitStep_at_c1b rfl) rfl,
    runWait_goes_on n (waitStep_at_c1c rfl) rfl]

/-- A busy check turns the poll back (R121, R139). -/
theorem runWait_check_busy (n : Nat) {s : State} {a1 b a2 a3 : Byte} {rest : List Byte} (hp : s.pos = .c1a)
    (hc : s.curOp = .issue ∨ s.curOp = .wait) (he : s.env = a1 :: b :: a2 :: a3 :: rest)
    (hbusy : busyOfSamples a1 b a2 a3 = true) :
    runWait (n + 4) s = .next { s.checked a1 b a2 a3 rest with pos := .c1a } := by
  have hd := decideC1d_checkReads hc he
  rw [hbusy, if_pos rfl] at hd
  rw [runWait_reads (n + 1) hp, runWait_stops n ((waitStep_at_c1d rfl).trans hd) rfl]

/-- An idle check goes on to W2 (R121). -/
theorem runWait_check_idle (n : Nat) {s : State} {a1 b a2 a3 : Byte} {rest : List Byte} (hp : s.pos = .c1a)
    (hc : s.curOp = .issue ∨ s.curOp = .wait) (he : s.env = a1 :: b :: a2 :: a3 :: rest)
    (hidle : busyOfSamples a1 b a2 a3 = false) :
    runWait (n + 4) s = runWait n { s.checked a1 b a2 a3 rest with pos := .w2 } := by
  have hd := decideC1d_checkReads hc he
  rw [hidle, if_neg Bool.false_ne_true] at hd
  rw [runWait_reads (n + 1) hp, runWait_goes_on n ((waitStep_at_c1d rfl).trans hd) rfl]

/-- From W2 to the pulse poll (R125 to R127). -/
theorem runWait_pulse (n : Nat) {s : State} {r st : Byte} {rest : List Byte} (hp : s.pos = .w2) (hst : s.wa.cmdStatus = some st)
    (he : s.env = r :: rest) : runWait (n + 3) s = runWait n (s.pulsed st r rest) := by
  rw [runWait_goes_on (n + 2) (waitStep_at_w2 hp) (by rw [hp]; rfl), runWait_goes_on (n + 1) (waitStep_at_w3a rfl) rfl,
    runWait_goes_on n (waitStep_at_w3b rfl) rfl]
  simp [State.pulsed, doW2_some s st hst, doW3a_eq, doW3b_eq, State.drawn, State.afterDraw, he]

/-- A set pulse bit turns the poll back (R128, R139). -/
theorem runWait_poll_set (n : Nat) {s : State} {p : Byte} {rest : List Byte} (hp : s.pos = .w4) (he : s.env = p :: rest)
    (hset : p.getLsbD 0 = true) : runWait (n + 1) s = .next { s with
      env := rest, tmp := { s.tmp with p := p }, history := s.history ++ [.read s.cfg.addrs.aBusyB p], pos := .w4 } := by
  have hdrawn := drawn_of_env s p rest he
  have hturn := doW4_turn s (by rw [hdrawn]; exact hset)
  rw [runWait_stops n (waitStep_at_w4 hp) (by rw [hp, hturn]; rfl), hturn, hdrawn, afterDraw_of_env s p rest he]

/-- A clear pulse bit lets the wait run to its end (R128 to R131). -/
theorem runWait_poll_clear (n : Nat) {s : State} {p : Byte} {rest : List Byte} (hp : s.pos = .w4) (he : s.env = p :: rest)
    (hclear : p.getLsbD 0 = false) : runWait (n + 4) s = .next { s with
      env := rest, tmp := { s.tmp with p := p }, history := s.history ++ [.read s.cfg.addrs.aBusyB p]
      wa := { s.wa with cmdState := s.wa.cmdState + 1, slotIndex := 0 }
      responses := s.responses ++ [.ok], curOp := .none, pos := .idle } := by
  have hdrawn := drawn_of_env s p rest he
  have hpass := doW4_pass s (by rw [hdrawn]; exact hclear)
  rw [hdrawn, afterDraw_of_env s p rest he] at hpass
  rw [runWait_goes_on (n + 3) ((waitStep_at_w4 hp).trans (congrArg _ hpass)) (by rw [hp]; rfl),
    runWait_goes_on (n + 2) (waitStep_at_w5 rfl) rfl, runWait_goes_on (n + 1) (waitStep_at_w6 rfl) rfl,
    runWait_stops n (waitStep_at_w7 rfl) rfl]
  rfl

/-- WAIT_COMPLETION up to the pulse poll, after an idle check (R132). -/
theorem runWait_to_pulsePoll (n : Nat) {s : State} {a1 b a2 a3 r st : Byte} {rest : List Byte} (hp : s.pos = .c1a)
    (hc : s.curOp = .issue ∨ s.curOp = .wait) (he : s.env = a1 :: b :: a2 :: a3 :: r :: rest)
    (hst : s.wa.cmdStatus = some st) (hidle : busyOfSamples a1 b a2 a3 = false) :
    runWait (n + 7) s = runWait n ((s.checked a1 b a2 a3 (r :: rest)).pulsed st r rest) :=
  (runWait_check_idle (n + 3) hp hc he hidle).trans (runWait_pulse n rfl hst rfl)

/-- Settles O43: the check goes on to W2 or turns back, and after the pulse the poll lets the wait end or turns back. -/
theorem waitCompletionRunsToItsEndOrATurn : Obligations.WaitCompletionRunsToItsEndOrATurn := by
  intro s hc
  rw [exec_waitCompletion hc]
  refine ⟨fun a1 b a2 a3 r p st rest hp he hst hidle hclear => ?_, fun a1 b a2 a3 r p st rest hp he hst hidle hset => ?_,
    fun a1 b a2 a3 rest hp he hbusy => ?_, fun p rest hp he hset => ?_⟩
  · refine (runWait_to_pulsePoll 4 hp hc he hst hidle).trans ((runWait_poll_clear 0 rfl rfl hclear).trans ?_)
    simp [State.checked, State.pulsed, classify_idle a1 b a2 a3 hidle]
  · refine (runWait_to_pulsePoll 4 hp hc he hst hidle).trans ((runWait_poll_set 3 rfl rfl hset).trans ?_)
    simp [State.checked, State.pulsed, classify_idle a1 b a2 a3 hidle]
  · rw [runWait_check_busy 7 hp hc he hbusy, ← hp]
    rfl
  · rw [runWait_poll_set 10 hp he hset, ← hp]

end Sys2Proof.Machine
end

section
/-! PROOFS. The whole wait: an operation answers once, in the step that ends it (R144, R131, R121), and the wait ends after any number of polls
(R132, R187). -/

namespace Sys2Proof.Machine

/-! ### The answer -/

/-- A step of an operation goes on with no response, or ends it: C1d a CHECK_BUSY with a boolean, W7 the wait with `ok` (R121, R131). -/
theorem responses_of_step (s t : State) (hr : s.resetIn = false) (hp : s.pos ≠ .idle) (h : step s = .next t) :
    (t.pos ≠ .idle ∧ t.responses = s.responses) ∨
    (t.pos = .idle ∧ s.curOp = .checkBusy ∧ ∃ bz, t.responses = s.responses ++ [.okBusy bz]) ∨
    (t.pos = .idle ∧ s.pos = .w7 ∧ t.responses = s.responses ++ [.ok]) := by
  rcases step_in_progress s t hr hp h with ⟨hq, rfl⟩ | ⟨hq, rfl⟩ | ⟨hq, rfl⟩ | ⟨hq, rfl⟩ | ⟨hq, rfl⟩ | ⟨hq, rfl⟩ | ⟨hq, rfl⟩ |
    ⟨hq, rfl⟩ | ⟨hq, rfl⟩ | ⟨hq, v, hv, rfl⟩ | ⟨hq, rfl⟩ | ⟨hq, rfl⟩ | ⟨hq, rfl⟩ | ⟨hq, rfl⟩ | ⟨hq, hd⟩ | ⟨hq, rfl⟩ | ⟨hq, rfl⟩ |
    ⟨hq, rfl⟩ | ⟨hq, rfl⟩ | ⟨hq, rfl⟩ | ⟨hq, rfl⟩ | ⟨hq, rfl⟩
  pick_goal 15
  · rcases decideC1d_cases _ t hd with ⟨hc, rfl⟩ | ⟨-, -, rfl⟩ | ⟨-, -, rfl⟩
    · exact .inr (.inl ⟨rfl, by simpa [doC1dRead_eq] using hc, _, by rw [doC1dRead_eq, State.afterDraw_responses]⟩)
    all_goals exact .inl ⟨nofun, by simp [doC1dRead_eq]⟩
  pick_goal 18
  · refine .inl ⟨?_, by simp [doW4_eq]⟩
    rw [doW4_eq]
    dsimp only
    split <;> decide
  pick_goal 20
  · exact .inr (.inr ⟨rfl, hq, rfl⟩)
  all_goals
    refine .inl ⟨nofun, ?_⟩
    simp [doI1, doI2, doI3, doI4a, doI4b, doI4c, doI5, doI6, doI7, doI8, doI9, doC1a, doC1b, doC1c, doW2, doW3a, doW3b, doW5, doW6,
      State.regWrite, State.afterRegRead, advanceState, resetSlot, setOpCounter]

/-- Settles O57: the position and the operation move together, and W7 is no position of a CHECK_BUSY. -/
theorem oneAnswerPerAcceptedRequest : Obligations.OneAnswerPerAcceptedRequest := by
  rintro s t ⟨⟨-, hcheck, -⟩, -⟩ hr hp h
  have hmoves := (stepWrites_of_step s t hr hp h).moves
  rcases responses_of_step s t hr hp h with ⟨ht, hresp⟩ | ⟨ht, hc, hresp⟩ | ⟨ht, hq, hresp⟩
  · obtain ⟨hidle, -⟩ | ⟨-, hop, -⟩ := hmoves
    · exact absurd hidle ht
    · exact ⟨fun _ => ⟨hresp, hop⟩, fun hidle => absurd hidle ht⟩
  all_goals
    obtain ⟨-, hop⟩ | ⟨hne, -⟩ := hmoves
    case inr => exact absurd ht hne
    refine ⟨fun hne => absurd ht hne, fun _ => ⟨hop, ?_⟩⟩
  · exact .inl ⟨hc, hresp⟩
  · have hne : s.curOp ≠ .checkBusy := by
      intro hc
      have := (hcheck hc).2
      simp [hq, posRank] at this
    exact .inr ⟨hne, hq, hresp⟩

/-! ### Any number of polls -/

/-- A run goes on from where another ends. -/
theorem runSteps_append {m n : Nat} {s t u : State} (h : runSteps m s = .next t) (h' : runSteps n t = .next u) :
    runSteps (m + n) s = .next u := (runSteps_add m n s t h).trans h'

/-- The bytes ENG shows to a row of checks, four to a check (R120). -/
def checkBytes (checks : List (Byte × Byte × Byte × Byte)) : List Byte :=
  checks.flatMap fun c => [c.1, c.2.1, c.2.2.1, c.2.2.2]

/-- The reads of a row of checks, four to a check (R120). -/
def checkEvents (m : AddressMap) (checks : List (Byte × Byte × Byte × Byte)) : List BusEvent :=
  checks.flatMap fun c => [.read m.aStatusA c.1, .read m.aBusyB c.2.1, .read m.aStatusA c.2.2.1, .read m.aStatusA c.2.2.2]

/-- A row of busy checks turns the check loop, and leaves nothing but the reads, the temporaries and the observer's value (R121, R160). -/
theorem runSteps_busy_checks (checks : List (Byte × Byte × Byte × Byte)) (s : State) (rest : List Byte) (hr : s.resetIn = false)
    (hp : s.pos = .c1a) (hc : s.curOp = .issue ∨ s.curOp = .wait)
    (hbusy : ∀ c ∈ checks, busyOfSamples c.1 c.2.1 c.2.2.1 c.2.2.2 = true) (he : s.env = checkBytes checks ++ rest) :
    ∃ tmp taxonomy, runSteps (4 * checks.length) s = .next { s with
      env := rest, tmp := tmp, taxonomy := taxonomy, history := s.history ++ checkEvents s.cfg.addrs checks } := by
  induction checks generalizing s with
  | nil => exact ⟨s.tmp, s.taxonomy, by simp [runSteps_zero, checkEvents, ← show s.env = rest from he]⟩
  | cons c cs ih =>
    obtain ⟨hbusy, hmore⟩ := List.forall_mem_cons.1 hbusy
    have hcheck := runSteps_check s c.1 c.2.1 c.2.2.1 c.2.2.2 (checkBytes cs ++ rest) hr hp hc he
    rw [hbusy, if_pos rfl, ← hp] at hcheck
    obtain ⟨tmp, taxonomy, hrun⟩ := ih (s.checked c.1 c.2.1 c.2.2.1 c.2.2.2 (checkBytes cs ++ rest)) hr hp hc hmore rfl
    refine ⟨tmp, taxonomy, ?_⟩
    rw [List.length_cons, Nat.mul_succ, Nat.add_comm, runSteps_add _ _ _ _ hcheck]
    exact hrun.trans (by simp [State.checked, checkEvents])

/-- A row of set pulse bits turns the poll at W4, and leaves nothing but the reads and the last of them in `p` (R128, R160). -/
theorem runSteps_set_polls (polls : List Byte) (s : State) (rest : List Byte) (hr : s.resetIn = false) (hp : s.pos = .w4)
    (hset : ∀ x ∈ polls, x.getLsbD 0 = true) (he : s.env = polls ++ rest) :
    runSteps polls.length s = .next { s with
      env := rest, tmp := { s.tmp with p := polls.getLastD s.tmp.p }
      history := s.history ++ polls.map (.read s.cfg.addrs.aBusyB) } := by
  induction polls generalizing s with
  | nil => simp [runSteps_zero, ← show s.env = rest from he]
  | cons x xs ih =>
    obtain ⟨hset, hmore⟩ := List.forall_mem_cons.1 hset
    rw [List.length_cons, Nat.add_comm, runSteps_add _ _ _ _ (runSteps_poll s x (xs ++ rest) hr hp he hset)]
    refine Eq.trans (ih _ hr hp hmore rfl) ?_
    simp [List.getLast?_cons]

/-- Settles O59: the busy checks, one idle check, the pulse, the set polls, and the stretch from a clear poll to the answer, in a row. -/
theorem waitEndsAfterAnyNumberOfPolls : Obligations.WaitEndsAfterAnyNumberOfPolls := by
  intro s checks polls rest a1 b a2 a3 r p st hr hp hc hst hbusy hidle hset hclear he
  obtain ⟨tmp, taxonomy, hchecks⟩ := runSteps_busy_checks checks s (a1 :: b :: a2 :: a3 :: r :: (polls ++ p :: rest)) hr hp hc hbusy
    (by simpa [checkBytes] using he)
  have hcheck := runSteps_append hchecks (runSteps_check _ a1 b a2 a3 _ hr hp hc rfl)
  rw [hidle] at hcheck
  have hpulse := runSteps_append hcheck (runSteps_pulse _ st r _ hr rfl hst rfl)
  have hpolls := runSteps_append hpulse (runSteps_set_polls polls _ _ hr rfl hset rfl)
  have hfinish := runSteps_append hpolls (runSteps_finish _ p rest hr rfl rfl hclear)
  rw [show 4 * checks.length + 4 + 3 + polls.length + 4 = 4 * checks.length + polls.length + 11 by omega] at hfinish
  exact ⟨_, hfinish, rfl, rfl, rfl, rfl, rfl, rfl, rfl, rfl, by simp [checkEvents]⟩

end Sys2Proof.Machine
end

section
/-! PROOFS. The slot and state tracker (43_slot_state.md): the slot address (R133). -/

namespace Sys2Proof.Machine

/-- The slot address as a number: 16 bits hold the base and the stride of every slot, so the sum does not wrap (R133). -/
theorem slotAddr_toNat (slot : BitVec 3) : (slotAddr slot).toNat = 0xE442 + slot.toNat * 32 := by
  have hslot := slot.isLt
  rw [slotAddr, BitVec.toNat_add, BitVec.toNat_shiftLeft, BitVec.toNat_setWidth, Nat.shiftLeft_eq,
    show slotBase.toNat = 0xE442 from rfl]
  omega

/-- Settles O44: the address delivered is `slotAddr slot`, and a slot is at most 7. -/
theorem slotAddressIsBasePlusStride : Obligations.SlotAddressIsBasePlusStride := by
  intro s slot
  have haddr := slotAddr_toNat slot
  have hslot := slot.isLt
  exact ⟨slotAddr slot, rfl, haddr, by omega, by omega⟩

end Sys2Proof.Machine
end

section
/-! PROOFS. What a descriptor keeps of its LBA and its mode (R78, R117): the bits the packing keeps and the trigger value. -/

namespace Sys2Proof.Machine

/-! ### A byte by its low two and its high six bits, as COMBINE packs it -/

theorem byte_append (x : Byte) : x.extractLsb' 2 6 ++ x.extractLsb' 0 2 = x := by
  rw [BitVec.extractLsb'_append_extractLsb'_eq_extractLsb' (by rfl)]
  exact BitVec.extractLsb'_eq_self

theorem byte_eq_iff (x y : Byte) :
    x = y ↔ x.extractLsb' 0 2 = y.extractLsb' 0 2 ∧ x.extractLsb' 2 6 = y.extractLsb' 2 6 := by
  refine ⟨fun h => h ▸ ⟨rfl, rfl⟩, fun ⟨hlow, hhigh⟩ => ?_⟩
  rw [← byte_append x, hlow, hhigh, byte_append]

/-- COMBINE loses which of its operands a high bit comes from, and bits 7:6 of the second (R99). -/
theorem combine_eq_combine_iff (v x w y : Byte) : combine v x = combine w y ↔
    v.extractLsb' 0 2 = w.extractLsb' 0 2 ∧
    v.extractLsb' 2 6 ||| x.extractLsb' 0 6 = w.extractLsb' 2 6 ||| y.extractLsb' 0 6 := by
  obtain ⟨-, -, hlow, hhigh, -⟩ := combinePacksByOr v x
  obtain ⟨-, -, hlow', hhigh', -⟩ := combinePacksByOr w y
  rw [byte_eq_iff, hlow, hhigh, hlow', hhigh']

theorem combine_zero_eq_iff (x y : Byte) : combine 0 x = combine 0 y ↔ x.extractLsb' 0 6 = y.extractLsb' 0 6 := by
  simp [combine_eq_combine_iff]

theorem lowSixBits_of_slice (l : Lba) (i : Nat) : (l.extractLsb' i 8).extractLsb' 0 6 = l.extractLsb' i 6 := by
  rw [← BitVec.setWidth_eq_extractLsb' (by decide), BitVec.setWidth_extractLsb'_of_le (by decide)]

/-! ### The descriptor by its bytes -/

@[simp] theorem mkImage_trigger (o s i t b c d r : Byte) : (mkImage o s i t b c d r).extractLsb' 0 8 = r := by
  rw [mkImage, BitVec.extractLsb'_append_eq_right]

/-- Two descriptors are the same where their four bytes that are not fixed are (R69, R116). -/
theorem descImage_eq_iff (l0 l1 l2 l3 r k0 k1 k2 k3 q : Byte) : descImage l0 l1 l2 l3 r = descImage k0 k1 k2 k3 q ↔
    l1 = k1 ∧ combine l0 l3 = combine k0 k3 ∧ combine 0 l2 = combine 0 k2 ∧ r = q := by
  unfold descImage
  refine ⟨fun h => ?_, fun ⟨hb, hc, hd, hr⟩ => by rw [hb, hc, hd, hr]⟩
  have hb := congrArg imageB h
  have hc := congrArg imageC h
  have hd := congrArg imageD h
  have hr := congrArg (BitVec.extractLsb' 0 8) h
  simp only [imageB_mkImage, imageC_mkImage, imageD_mkImage, mkImage_trigger] at hb hc hd hr
  exact ⟨hb, hc, hd, hr⟩

/-! ### The trigger value by the mode -/

/-- An admitted mode has the trigger value of its class (R100, R146). -/
theorem trigSel_of_admitted {mo : ModeOther} {m : Byte} (ha : admittedMode mo m = true) :
    trigSel mo m = some (if m = 2 ∨ m = 3 then trigM23 else trigM1) := by
  by_cases h23 : m = 2 ∨ m = 3
  · simp only [trigSel, if_pos h23]
  · simp only [trigSel, if_neg h23]
    cases mo with
    | asMode1 => split <;> rfl
    | refuse =>
      have h1 : m = 1 := by simp only [admittedMode, Bool.or_eq_true, beq_iff_eq] at ha; tauto
      rw [if_pos h1]

/-- A mode that is not admitted has none (R100, R146, D7). -/
theorem trigSel_of_not_admitted {mo : ModeOther} {m : Byte} (ha : admittedMode mo m = false) : trigSel mo m = none := by
  cases mo with
  | asMode1 => cases ha
  | refuse =>
    simp only [admittedMode, Bool.or_eq_false_iff, beq_eq_false_iff_ne] at ha
    obtain ⟨⟨h1, h2⟩, h3⟩ := ha
    simp only [trigSel, h1, h2, h3, or_self, if_false]

theorem triggerOfClass_eq_iff (p q : Prop) [Decidable p] [Decidable q] :
    (if p then trigM23 else trigM1) = (if q then trigM23 else trigM1) ↔ (p ↔ q) := by
  by_cases hp : p <;> by_cases hq : q <;> simp [hp, hq, trigM23, trigM1]

theorem descOf_of_admitted {mo : ModeOther} {m : Byte} (l : Lba) (ha : admittedMode mo m = true) :
    descOf mo l m = some (descImage (lbaByte0 l) (lbaByte1 l) (lbaByte2 l) (lbaByte3 l)
      (if m = 2 ∨ m = 3 then trigM23 else trigM1)) := by
  rw [descOf, trigSel_of_admitted ha]

theorem descOf_eq_none_iff (mo : ModeOther) (l : Lba) (m : Byte) : descOf mo l m = none ↔ admittedMode mo m = false := by
  cases ha : admittedMode mo m with
  | true => simp [descOf_of_admitted l ha]
  | false => simp [descOf, trigSel_of_not_admitted ha]

/-- Settles O26: the descriptor holds LBA byte 1, bytes 0 and 3 combined, byte 2 shifted, and the trigger value of the mode's class. -/
theorem descriptorForgetsLbaBits : Obligations.DescriptorForgetsLbaBits := by
  refine ⟨fun mo l k m n hm hn => ?_, descOf_eq_none_iff, fun mo => by cases mo <;> decide⟩
  rw [descOf_of_admitted l hm, descOf_of_admitted k hn, Option.some_inj, descImage_eq_iff, combine_eq_combine_iff,
    combine_zero_eq_iff, triggerOfClass_eq_iff]
  simp only [lbaByte0, lbaByte1, lbaByte2, lbaByte3, BitVec.extractLsb'_extractLsb'_of_le (show 0 + 2 ≤ 8 by decide),
    BitVec.extractLsb'_extractLsb'_of_le (show 2 + 6 ≤ 8 by decide), lowSixBits_of_slice]
  tauto

end Sys2Proof.Machine
end

section
/-! PROOFS. The mode during an operation (R193): a step looks at it at I8 only, and there modes 2 and 3 have one trigger value. -/

namespace Sys2Proof.Machine

/-- The state with another stored mode. -/
def State.withMode (s : State) (m : Byte) : State := { s with wa := { s.wa with mode := some m } }

@[simp] theorem State.withMode_cfg (s : State) (m : Byte) : (s.withMode m).cfg = s.cfg := rfl
@[simp] theorem State.withMode_tmp (s : State) (m : Byte) : (s.withMode m).tmp = s.tmp := rfl

/-! ### What an operation does commutes with storing another mode -/

theorem afterDraw_withMode (s : State) (m : Byte) : (s.withMode m).afterDraw = s.afterDraw.withMode m := by
  cases he : s.env with
  | nil => rw [afterDraw_of_free s he, afterDraw_of_free (s.withMode m) he]; rfl
  | cons v rest => rw [afterDraw_of_env s v rest he, afterDraw_of_env (s.withMode m) v rest he]; rfl

theorem afterField_withMode (s : State) (m : Byte) (f : Option Byte) :
    (s.withMode m).afterField f = (s.afterField f).withMode m := by
  cases f with
  | none => exact afterDraw_withMode s m
  | some v => rfl

theorem afterRegRead_withMode (s : State) (m : Byte) (r : Reg) :
    (s.withMode m).afterRegRead r = (s.afterRegRead r).withMode m := by
  rw [afterRegRead_eq, afterRegRead_eq, afterDraw_withMode, State.withMode_cfg]
  split <;> rfl

/-- The decision of C1d is of the operation and the samples alone (R121). -/
theorem decideC1d_withMode {s t : State} (m : Byte) (h : decideC1d s = .next t) :
    decideC1d (s.withMode m) = .next (t.withMode m) := by
  rcases decideC1d_cases s t h with ⟨hc, rfl⟩ | ⟨hc, hb, rfl⟩ | ⟨hc, hb, rfl⟩
  · exact decideC1d_answers (s.withMode m) hc
  all_goals
    rw [decideC1d_goes (s.withMode m) hc, State.withMode_tmp, hb]
    rfl

/-- Away from I8 a step of an operation does not look at the mode (R112). -/
theorem step_withMode {s t : State} (m : Byte) (hr : s.resetIn = false) (hp : s.pos ≠ .idle) (h8 : s.pos ≠ .i8)
    (h : step s = .next t) : step (s.withMode m) = .next (t.withMode m) := by
  rcases step_in_progress s t hr hp h with ⟨hq, rfl⟩ | ⟨hq, rfl⟩ | ⟨hq, rfl⟩ | ⟨hq, rfl⟩ | ⟨hq, rfl⟩ | ⟨hq, rfl⟩ | ⟨hq, rfl⟩ |
    ⟨hq, rfl⟩ | ⟨hq, rfl⟩ | ⟨hq, -⟩ | ⟨hq, rfl⟩ | ⟨hq, rfl⟩ | ⟨hq, rfl⟩ | ⟨hq, rfl⟩ | ⟨hq, hd⟩ | ⟨hq, rfl⟩ | ⟨hq, rfl⟩ |
    ⟨hq, rfl⟩ | ⟨hq, rfl⟩ | ⟨hq, rfl⟩ | ⟨hq, rfl⟩ | ⟨hq, rfl⟩
  · exact step_at_i1 _ hr hq
  · exact step_at_i2 _ hr hq
  · exact step_at_i3 _ hr hq
  · exact step_at_i4a _ hr hq
  · rw [step_at_i4b (s.withMode m) hr hq, doI4b, afterRegRead_withMode]; rfl
  · exact step_at_i4c _ hr hq
  · rw [step_at_i5 (s.withMode m) hr hq, doI5, afterField_withMode]; rfl
  · rw [step_at_i6 (s.withMode m) hr hq, doI6, afterField_withMode, afterField_withMode]; rfl
  · rw [step_at_i7 (s.withMode m) hr hq, doI7, afterField_withMode]; rfl
  · exact absurd hq h8
  · exact step_at_i9 _ hr hq
  · rw [step_at_c1a (s.withMode m) hr hq, doC1a, afterRegRead_withMode]; rfl
  · rw [step_at_c1b (s.withMode m) hr hq, doC1b, afterRegRead_withMode]; rfl
  · rw [step_at_c1c (s.withMode m) hr hq, doC1c, afterRegRead_withMode]; rfl
  · have hread : doC1dRead (s.withMode m) = (doC1dRead s).withMode m := by rw [doC1dRead, afterRegRead_withMode]; rfl
    rw [step_at_c1d (s.withMode m) hr hq, hread]
    exact decideC1d_withMode m hd
  · rw [step_at_w2 (s.withMode m) hr hq, doW2, afterField_withMode]; rfl
  · rw [step_at_w3a (s.withMode m) hr hq, doW3a, afterRegRead_withMode]; rfl
  · exact step_at_w3b _ hr hq
  · rw [step_at_w4 (s.withMode m) hr hq, doW4, afterRegRead_withMode]; rfl
  · exact step_at_w5 _ hr hq
  · exact step_at_w6 _ hr hq
  · exact step_at_w7 _ hr hq

/-! ### Modes 2 and 3 at I8 -/

/-- Modes 2 and 3 have the trigger value 0x80, and I8 writes it (R77, R112). -/
theorem step_at_i8_of_mode23 {s : State} {m : Byte} (hr : s.resetIn = false) (hp : s.pos = .i8) (hm : s.wa.mode = some m)
    (h23 : m = 2 ∨ m = 3) : step s = .next (doI8 trigM23 s) := by
  have ha : admittedMode s.cfg.modeOther m = true := by
    rcases h23 with rfl | rfl <;> cases s.cfg.modeOther <;> rfl
  obtain ⟨v, hv, hstep⟩ := step_at_i8 s m hr hp hm ha
  rw [hstep, ← Option.some_inj.1 ((hv.symm.trans (trigger_of_mode hm)).trans (if_pos h23))]

/-- Settles O56: a step looks at the mode at I8 only, and there writes the same for both. -/
theorem modesTwoAndThreeAreAlike : Obligations.ModesTwoAndThreeAreAlike := by
  intro s t hr hp hm h
  by_cases h8 : s.pos = .i8
  · have h2 := step_at_i8_of_mode23 hr h8 hm (.inl rfl)
    have h3 := step_at_i8_of_mode23 (s := s.withMode 3) hr h8 rfl (.inr rfl)
    cases h2.symm.trans h
    exact h3
  · exact step_withMode 3 hr hp h8 h

end Sys2Proof.Machine
end

section
/-! PROOFS. The hang (R160, R191): no number of polls makes the block end a wait by itself. -/

namespace Sys2Proof.Machine

theorem ready_of_ne_idle {s : State} (h : s.pos ≠ .idle) : s.ready = false := beq_eq_false_iff_ne.2 h

/-- Settles O60: a row of busy checks ends where it began but for what reading leaves, and so does a row of set polls. -/
theorem pollsCanTurnForEver : Obligations.PollsCanTurnForEver := by
  refine ⟨fun s checks rest hr hp hc hbusy he => ?_, fun s polls rest hr hp hset he => ?_⟩
  · obtain ⟨tmp, taxonomy, hrun⟩ := runSteps_busy_checks checks s rest hr hp hc hbusy he
    exact ⟨_, hrun, hp, rfl, rfl, rfl, rfl, rfl, ready_of_ne_idle (by simp [hp]), rfl⟩
  · exact ⟨_, runSteps_set_polls polls s rest hr hp hset he, hp, rfl, rfl, rfl, rfl, rfl, ready_of_ne_idle (by simp [hp]), rfl⟩

end Sys2Proof.Machine
end

section
/-! PROOFS. From an operation to its word and back (R83 to R86, R69, R78), and the rows of match and mask (R84, R88). -/

namespace Sys2Proof

/-! ### An operation's word decodes to it -/

/-- Every operation's word, where it has one, decodes back: thirteen operations have a word, the others none (R84, R86, R69). -/
theorem decode_encode (i : Instr) : Laws.Encoding.Statement i := by
  cases i with
  | issue => exact Laws.Encoding.issue
  | checkBusy => exact Laws.Encoding.checkBusy
  | wait => exact Laws.Encoding.wait
  | slotAddress => exact Laws.Encoding.slotAddress
  | waWrite field data => exact Laws.Encoding.waWrite field data
  | waRead field => exact Laws.Encoding.waRead field
  | reservedOp0 => exact Laws.Encoding.reservedOp0
  | reservedOp7 => exact Laws.Encoding.reservedOp7
  | reservedOp8F op => exact Laws.Encoding.reservedOp8F op
  | regRd addr => exact Laws.Encoding.regRd addr
  | regWr addr v => exact Laws.Encoding.regWr addr v
  | descRwM1 b c d => exact Laws.Encoding.descRwM1 b c d
  | descRwM23 b c d => exact Laws.Encoding.descRwM23 b c d
  | _ => exact Laws.Encoding.of_no_word rfl

/-- An operation has a word exactly when the table names a row of match and mask for it (opcode_table.json). -/
theorem encode_eq_none_iff (i : Instr) : encode i = none ↔ codedMnemonic i = "" := by
  cases i with
  | issue | checkBusy | wait | slotAddress | waWrite | waRead | reservedOp0 | reservedOp7 | reservedOp8F | regRd | regWr | descRwM1
  | descRwM23 => exact iff_of_false nofun (by simp [codedMnemonic])
  | _ => exact iff_of_true rfl rfl

/-- Settles O1, by the two lemmas above, each a case for each operation. -/
theorem encodedOperationsDecodeBack : Obligations.EncodedOperationsDecodeBack :=
  ⟨fun i w hwf hw => decode_encode i hwf w hw, encode_eq_none_iff⟩

/-! ### Words by their fields -/

theorem mkReq_fields (w : ReqWord) : mkReq (reqOpSel w) (reqField w) (reqData w) = w := by
  simp only [mkReq, reqOpSel, reqField, reqData]
  rw [BitVec.extractLsb'_append_extractLsb'_eq_extractLsb' (by rfl), BitVec.extractLsb'_append_extractLsb'_eq_extractLsb' (by rfl)]
  exact BitVec.extractLsb'_eq_self

/-- Masking a request word field by field. -/
theorem mkReq_and (op op' f f' : BitVec 4) (d d' : Byte) :
    mkReq op f d &&& mkReq op' f' d' = mkReq (op &&& op') (f &&& f') (d &&& d') := by
  unfold mkReq
  erw [BitVec.and_append, BitVec.and_append]

theorem mkBus_fields (w : BusWord) : mkBus (busWe w) (busAddr w) (busData w) = w := by
  have hwe : BitVec.ofBool (busWe w) = w.extractLsb' 24 1 := by
    ext i hi
    obtain rfl : i = 0 := by omega
    simp [busWe]
  simp only [mkBus, busAddr, busData, hwe]
  rw [BitVec.extractLsb'_append_extractLsb'_eq_extractLsb' (by rfl), BitVec.extractLsb'_append_extractLsb'_eq_extractLsb' (by rfl)]
  exact BitVec.extractLsb'_eq_self

/-- Masking a bus word field by field. -/
theorem mkBus_and (we we' : Bool) (addr addr' : Address) (v v' : Byte) :
    mkBus we addr v &&& mkBus we' addr' v' = mkBus (we && we') (addr &&& addr') (v &&& v') := by
  unfold mkBus
  erw [BitVec.and_append, BitVec.and_append, BitVec.ofBool_and_ofBool]

/-- Two concatenations at one place are the same where both halves are. -/
theorem append_inj {m n : Nat} {x x' : BitVec m} {y y' : BitVec n} : x ++ y = x' ++ y' ↔ x = x' ∧ y = y' := by
  refine ⟨fun h => ⟨?_, ?_⟩, fun ⟨hx, hy⟩ => by rw [hx, hy]⟩
  · rw [← BitVec.extractLsb'_append_eq_left (a := x) (b := y), h, BitVec.extractLsb'_append_eq_left]
  · rw [← BitVec.extractLsb'_append_eq_right (a := x) (b := y), h, BitVec.extractLsb'_append_eq_right]

/-- Two images are the same where their eight bytes are (R69). -/
theorem mkImage_inj {o s i t b c d r o' s' i' t' b' c' d' r' : Byte} :
    mkImage o s i t b c d r = mkImage o' s' i' t' b' c' d' r' ↔
      o = o' ∧ s = s' ∧ i = i' ∧ t = t' ∧ b = b' ∧ c = c' ∧ d = d' ∧ r = r' := by
  unfold mkImage
  iterate 7 erw [append_inj]
  simp only [and_assoc]

/-- Every image is put together from eight bytes. -/
theorem exists_mkImage (w : Image) : ∃ o s i t b c d r, w = mkImage o s i t b c d r := by
  refine ⟨w.extractLsb' 56 8, w.extractLsb' 48 8, w.extractLsb' 40 8, w.extractLsb' 32 8, w.extractLsb' 24 8, w.extractLsb' 16 8,
    w.extractLsb' 8 8, w.extractLsb' 0 8, ?_⟩
  unfold mkImage
  iterate 7 rw [BitVec.extractLsb'_append_extractLsb'_eq_extractLsb' (by rfl)]
  exact BitVec.extractLsb'_eq_self.symm


/-! ### A decoded word encodes to it, but for its ignored bits -/

/-- A masked request word, field by field. -/
theorem and_mkReq (w : ReqWord) (op f : BitVec 4) (d : Byte) :
    w &&& mkReq op f d = mkReq (reqOpSel w &&& op) (reqField w &&& f) (reqData w &&& d) := by
  rw [← mkReq_and, mkReq_fields]

/-- The mask of every row but that of RESERVED_OP_8_F keeps `op_sel` alone (R84). -/
theorem and_opSelMask (w : ReqWord) : w &&& 0xF000#16 = mkReq (reqOpSel w) 0 0 := by
  rw [show 0xF000#16 = mkReq (BitVec.allOnes 4) 0 0 by decide, and_mkReq, BitVec.and_allOnes]
  simp

theorem and_fieldMask (w : ReqWord) : w &&& 0xFF00#16 = mkReq (reqOpSel w) (reqField w) 0 := by
  rw [show 0xFF00#16 = mkReq (BitVec.allOnes 4) (BitVec.allOnes 4) 0 by decide, and_mkReq, BitVec.and_allOnes, BitVec.and_allOnes]
  simp

/-- The mask of REG_RD and REG_WR keeps `we` alone, and what a read keeps of its word is `we` and the address (R86). -/
theorem and_weMask (w : BusWord) : w &&& 0x1000000#25 = mkBus (busWe w) 0 0 := by
  rw [show 0x1000000#25 = mkBus true 0 0 by decide]
  conv_lhs => rw [← mkBus_fields w]
  simp [mkBus_and]

theorem and_readMask (w : BusWord) : w &&& 0x1FFFF00#25 = mkBus (busWe w) (busAddr w) 0 := by
  rw [show 0x1FFFF00#25 = mkBus true (BitVec.allOnes 16) 0 by decide]
  conv_lhs => rw [← mkBus_fields w]
  rw [mkBus_and, BitVec.and_allOnes]
  simp

/-- A request word keeps all of a WA_WRITE, `op_sel` and the field of a WA_READ, and `op_sel` alone of every other (R84, R152, R153). -/
theorem reqKeepMask_of_waWrite {w : ReqWord} (h : reqOpSel w = 5#4) : reqKeepMask w = BitVec.allOnes 16 := by
  unfold reqKeepMask
  rw [h]
  rfl

theorem reqKeepMask_of_waRead {w : ReqWord} (h : reqOpSel w = 6#4) : reqKeepMask w = 0xFF00#16 := by
  unfold reqKeepMask
  rw [h]
  rfl

theorem reqKeepMask_of_noOperand {w : ReqWord} (h5 : reqOpSel w ≠ 5#4) (h6 : reqOpSel w ≠ 6#4) : reqKeepMask w = 0xF000#16 := by
  unfold reqKeepMask
  split
  · contradiction
  · contradiction
  · rfl

/-- The eight codes of RESERVED_OP_8_F have bit 3 set, and the operand is the other three bits (R154). -/
theorem opSel_of_high : ∀ op : BitVec 4,
    op ≠ 0 ∧ op ≠ 1 ∧ op ≠ 2 ∧ op ≠ 3 ∧ op ≠ 4 ∧ op ≠ 5 ∧ op ≠ 6 ∧ op ≠ 7 → 1#1 ++ op.extractLsb' 0 3 = op := by
  decide

/-- Encoding a decoded request word gives it back without its ignored bits (R84, R90). -/
theorem encode_decodeReq (w : ReqWord) : encode (decodeReq w) = some (.req (w &&& reqKeepMask w)) := by
  have noOperand : ∀ op : BitVec 4, op ≠ 5 → op ≠ 6 → reqOpSel w = op →
      some (CodedWord.req (mkReq op 0 0)) = some (.req (w &&& reqKeepMask w)) := by
    rintro _ h5 h6 rfl
    rw [reqKeepMask_of_noOperand h5 h6, and_opSelMask]
  unfold decodeReq
  split
  next h => exact noOperand 0 (by decide) (by decide) h
  next h => exact noOperand 1 (by decide) (by decide) h
  next h => exact noOperand 2 (by decide) (by decide) h
  next h => exact noOperand 3 (by decide) (by decide) h
  next h => exact noOperand 4 (by decide) (by decide) h
  next h =>
    have hw := mkReq_fields w
    rw [h] at hw
    rw [reqKeepMask_of_waWrite h, BitVec.and_allOnes, encode]
    exact congrArg (fun x => some (CodedWord.req x)) hw
  next h =>
    rw [reqKeepMask_of_waRead h, and_fieldMask, h]
    rfl
  next h => exact noOperand 7 (by decide) (by decide) h
  next op h0 h1 h2 h3 h4 h5 h6 h7 =>
    rw [encode, opSel_of_high _ ⟨h0, h1, h2, h3, h4, h5, h6, h7⟩]
    exact noOperand _ h5 h6 rfl

/-- Encoding a decoded bus word gives it back, but for the `wdata` of a read (R86, R90). -/
theorem encode_decodeBus (w : BusWord) : encode (decodeBus w) = some (.bus (if busWe w then w else w &&& 0x1FFFF00#25)) := by
  have hw := mkBus_fields w
  unfold decodeBus
  cases hwe : busWe w with
  | true => rw [hwe] at hw; exact congrArg (fun x => some (CodedWord.bus x)) hw
  | false => rw [and_readMask, hwe]; rfl

/-- An image that matches a row is the image of its three LBA bytes, of which the last is admitted (R69, R76). -/
theorem image_of_match {w : Image} {r : Byte} (h : w &&& imageMask = mkImage 0x32 0x90 0x01 0x14 0 0 0 r) :
    lbaR2ByteOk (imageD w) = true ∧ w = mkImage 0x32 0x90 0x01 0x14 (imageB w) (imageC w) (imageD w) r := by
  obtain ⟨o, s, i, t, b, c, d, r', rfl⟩ := exists_mkImage w
  have full : ∀ x : Byte, x &&& 0xFF = x := by decide
  rw [imageMask_eq, mkImage_and, mkImage_inj] at h
  simp only [full] at h
  obtain ⟨ho, hs, hi, ht, -, -, hd, hr⟩ := h
  simp only [imageB_mkImage, imageC_mkImage, imageD_mkImage]
  exact ⟨(lbaR2ByteOk_iff d).2 hd, by rw [ho, hs, hi, ht, hr]⟩

/-- Encoding a decoded image gives it back whole (R78). -/
theorem encode_decodeImage {w : Image} {i : Instr} (h : decodeImage w = .ok i) :
    i.wellFormed = true ∧ encode i = some (.image w) := by
  unfold decodeImage at h
  split at h
  next hm =>
    cases h
    obtain ⟨hok, hw⟩ := image_of_match (hm.trans masked_M1.symm)
    exact ⟨hok, by rw [encode, ← hw]⟩
  next =>
    split at h
    next hm =>
      cases h
      obtain ⟨hok, hw⟩ := image_of_match (hm.trans masked_M23.symm)
      exact ⟨hok, by rw [encode, ← hw]⟩
    next => cases h

/-- Settles O2, by what each of the three formats gives back. -/
theorem decodedWordsReencode : Obligations.DecodedWordsReencode :=
  ⟨encode_decodeReq, encode_decodeBus, fun _ _ => encode_decodeImage⟩

/-! ### The rows of match and mask -/

/-- A row whose mask looks at no bit outside `m` matches a word by its bits inside. -/
theorem rowMatches_of_mask {n : Nat} {r : MaskRow n} {m : BitVec n} (hm : m &&& r.mask = r.mask) (w : BitVec n) :
    rowMatches r (w &&& m) = rowMatches r w := by
  rw [rowMatches, rowMatches, BitVec.and_assoc, hm]

theorem filter_reqRows (w : ReqWord) :
    reqRows.filter (fun r => rowMatches r w) = reqRows.filter (fun r => rowMatches r (mkReq (reqOpSel w) 0 0)) := by
  have hmask : ∀ r ∈ reqRows, 0xF000#16 &&& r.mask = r.mask := by decide
  refine List.filter_congr fun r hr => ?_
  rw [← and_opSelMask, rowMatches_of_mask (hmask r hr)]

theorem filter_busRows (w : BusWord) :
    busRows.filter (fun r => rowMatches r w) = busRows.filter (fun r => rowMatches r (mkBus (busWe w) 0 0)) := by
  have hmask : ∀ r ∈ busRows, 0x1000000#25 &&& r.mask = r.mask := by decide
  refine List.filter_congr fun r hr => ?_
  rw [← and_weMask, rowMatches_of_mask (hmask r hr)]

/-- The mnemonic of a request is that of its `op_sel` (R84). -/
theorem codedMnemonic_decodeReq (w : ReqWord) : codedMnemonic (decodeReq w) = codedMnemonic (decodeReq (mkReq (reqOpSel w) 0 0)) := by
  unfold decodeReq
  rw [reqOpSel_mkReq]
  split <;> rfl

theorem rows_of_opSel (op : BitVec 4) : (reqRows.filter (fun r => rowMatches r (mkReq op 0 0))).map (fun r => r.mnemonic) =
    [codedMnemonic (decodeReq (mkReq op 0 0))] := by
  revert op; decide

theorem rows_of_we (we : Bool) : (busRows.filter (fun r => rowMatches r (mkBus we 0 0))).map (fun r => r.mnemonic) =
    [codedMnemonic (decodeBus (mkBus we 0 0))] := by
  revert we; decide

theorem codedMnemonic_decodeBus (w : BusWord) : codedMnemonic (decodeBus w) = codedMnemonic (decodeBus (mkBus (busWe w) 0 0)) := by
  unfold decodeBus
  rw [busWe_mkBus]
  split <;> rfl

/-- Settles O3: a word matches by its `op_sel` or its `we` alone, and each of their values matches one row. -/
theorem eachWordMatchesExactlyItsRow : Obligations.EachWordMatchesExactlyItsRow := by
  refine ⟨fun w => ?_, fun w => ?_⟩
  · rw [filter_reqRows, codedMnemonic_decodeReq, rows_of_opSel]
  · rw [filter_busRows, codedMnemonic_decodeBus, rows_of_we]

/-- Settles O4, by decoding each word. -/
theorem wordsOfTheTestVectorsDecode : Obligations.WordsOfTheTestVectorsDecode := by
  unfold Obligations.WordsOfTheTestVectorsDecode
  refine ⟨?_, ?_, ?_, ?_, ?_, ?_, ?_, ?_, ?_, ?_, ?_, ?_, ?_, ?_, ?_, ?_⟩ <;> rfl
end Sys2Proof
end

section
/-! PROOFS. What a step performs (R23, R144), what it holds back while the block is not ready (R155), and the state no step of an operation
looks at (R15, R19, R22, R141, R142). -/

namespace Sys2Proof.Machine

/-! ### What is performed -/

/-- A bench word that names no operation stops the step (log 2). -/
theorem step_of_undecodable (s : State) (w : BenchWord) (e : DecodeError) (hr : s.resetIn = false) (hp : s.pos = .idle)
    (hb : s.bench = some w) (hd : decode w.coded = .error e) : step s = .refused .notDescriptor := by
  cases e
  simp [step, fetch, hr, hp, stepAt, fetchIdle, hb, hd]

/-- Settles O5: the bench first, then the port, then waiting. -/
theorem stepPerformsThePresentedOperation : Obligations.StepPerformsThePresentedOperation := fun s hr hp =>
  ⟨fun w rest hb hq => ⟨rfl, step_of_request s w rest hr hp hb hq⟩, fun w i hb hd => step_of_bench s w i hr hp hb hd,
    fun w e hb hd => step_of_undecodable s w e hr hp hb hd, fun hb hq => step_waiting s hr hp hb hq⟩

/-- Settles O6: what a position's step is decides what is fetched. -/
theorem stepPerformsTheStepOfItsPosition : Obligations.StepPerformsTheStepOfItsPosition := by
  intro s i hr hi
  simp [step, fetch, hr, hi]

/-- Where the mode has a trigger value, I8 writes it (R112). -/
theorem step_at_i8_of_trigger {s : State} {v : Byte} (hr : s.resetIn = false) (hp : s.pos = .i8) (hv : s.trigger = some v) :
    step s = .next (doI8 v s) := by
  cases hm : s.wa.mode with
  | none => simp [State.trigger, hm] at hv
  | some m =>
    have ha : admittedMode s.cfg.modeOther m = true := by
      by_contra hna
      rw [trigger_of_mode hm, trigSel_of_not_admitted (Bool.eq_false_iff.2 hna)] at hv
      cases hv
    obtain ⟨v', hv', hstep⟩ := step_at_i8 s m hr hp hm ha
    rw [hstep, Option.some_inj.1 (hv'.symm.trans hv)]

/-! ### State that no step of an operation looks at -/

/-- What is presented, the parameter bytes, the latch, the operation counter and the slot index. -/
structure Unread where
  port : List ReqWord
  bench : Option BenchWord
  param0 : Option Byte
  param1 : Option Byte
  saHi : Byte
  saLo : Byte
  saSet : Bool
  opCounter : Option Byte
  slotIndex : BitVec 3

/-- What a state has of this. -/
def State.unread (s : State) : Unread where
  port := s.port
  bench := s.bench
  param0 := s.wa.param0
  param1 := s.wa.param1
  saHi := s.saHi
  saLo := s.saLo
  saSet := s.saSet
  opCounter := s.wa.opCounter
  slotIndex := s.wa.slotIndex

/-- The state with other values of this. -/
def State.withUnread (s : State) (u : Unread) : State :=
  { s with
    port := u.port, bench := u.bench, saHi := u.saHi, saLo := u.saLo, saSet := u.saSet
    wa := { s.wa with param0 := u.param0, param1 := u.param1, opCounter := u.opCounter, slotIndex := u.slotIndex } }

/-- What the step of a position makes of this: I9 writes the operation counter and W6 the slot index (R113, R130). -/
def Unread.after (u : Unread) (p : Pos) : Unread :=
  { u with
    opCounter := if p = .i9 then some opcntSentinel else u.opCounter
    slotIndex := if p = .w6 then 0 else u.slotIndex }

theorem afterDraw_withUnread (s : State) (u : Unread) : (s.withUnread u).afterDraw = s.afterDraw.withUnread u := by
  cases he : s.env with
  | nil => rw [afterDraw_of_free s he, afterDraw_of_free (s.withUnread u) he]; rfl
  | cons v rest => rw [afterDraw_of_env s v rest he, afterDraw_of_env (s.withUnread u) v rest he]; rfl

theorem afterField_withUnread (s : State) (u : Unread) (f : Option Byte) :
    (s.withUnread u).afterField f = (s.afterField f).withUnread u := by
  cases f with
  | none => exact afterDraw_withUnread s u
  | some v => rfl

theorem afterRegRead_withUnread (s : State) (u : Unread) (r : Reg) :
    (s.withUnread u).afterRegRead r = (s.afterRegRead r).withUnread u := by
  rw [afterRegRead_eq, afterRegRead_eq, afterDraw_withUnread, show (s.withUnread u).cfg = s.cfg from rfl]
  split <;> rfl

theorem decideC1d_withUnread {s t : State} (u : Unread) (h : decideC1d s = .next t) :
    decideC1d (s.withUnread u) = .next (t.withUnread u) := by
  rcases decideC1d_cases s t h with ⟨hc, rfl⟩ | ⟨hc, hb, rfl⟩ | ⟨hc, hb, rfl⟩
  · exact decideC1d_answers (s.withUnread u) hc
  all_goals
    rw [decideC1d_goes (s.withUnread u) hc, show (s.withUnread u).tmp = s.tmp from rfl, hb]
    rfl

/-- A step of an operation does the same whatever this is, and makes of it what its position does. -/
theorem step_withUnread {s t : State} (u : Unread) (hr : s.resetIn = false) (hp : s.pos ≠ .idle) (h : step s = .next t) :
    step (s.withUnread u) = .next (t.withUnread (u.after s.pos)) := by
  rcases step_in_progress s t hr hp h with ⟨hq, rfl⟩ | ⟨hq, rfl⟩ | ⟨hq, rfl⟩ | ⟨hq, rfl⟩ | ⟨hq, rfl⟩ | ⟨hq, rfl⟩ | ⟨hq, rfl⟩ |
    ⟨hq, rfl⟩ | ⟨hq, rfl⟩ | ⟨hq, v, hv, rfl⟩ | ⟨hq, rfl⟩ | ⟨hq, rfl⟩ | ⟨hq, rfl⟩ | ⟨hq, rfl⟩ | ⟨hq, hd⟩ | ⟨hq, rfl⟩ | ⟨hq, rfl⟩ |
    ⟨hq, rfl⟩ | ⟨hq, rfl⟩ | ⟨hq, rfl⟩ | ⟨hq, rfl⟩ | ⟨hq, rfl⟩ <;> rw [hq]
  · exact step_at_i1 _ hr hq
  · exact step_at_i2 _ hr hq
  · exact step_at_i3 _ hr hq
  · exact step_at_i4a _ hr hq
  · rw [step_at_i4b (s.withUnread u) hr hq, doI4b, afterRegRead_withUnread]; rfl
  · exact step_at_i4c _ hr hq
  · rw [step_at_i5 (s.withUnread u) hr hq, doI5, afterField_withUnread]; rfl
  · rw [step_at_i6 (s.withUnread u) hr hq, doI6, afterField_withUnread, afterField_withUnread]; rfl
  · rw [step_at_i7 (s.withUnread u) hr hq, doI7, afterField_withUnread]; rfl
  · exact step_at_i8_of_trigger (s := s.withUnread u) hr hq hv
  · exact step_at_i9 _ hr hq
  · rw [step_at_c1a (s.withUnread u) hr hq, doC1a, afterRegRead_withUnread]; rfl
  · rw [step_at_c1b (s.withUnread u) hr hq, doC1b, afterRegRead_withUnread]; rfl
  · rw [step_at_c1c (s.withUnread u) hr hq, doC1c, afterRegRead_withUnread]; rfl
  · have hread : doC1dRead (s.withUnread u) = (doC1dRead s).withUnread u := by rw [doC1dRead, afterRegRead_withUnread]; rfl
    rw [step_at_c1d (s.withUnread u) hr hq, hread]
    exact decideC1d_withUnread u hd
  · rw [step_at_w2 (s.withUnread u) hr hq, doW2, afterField_withUnread]; rfl
  · rw [step_at_w3a (s.withUnread u) hr hq, doW3a, afterRegRead_withUnread]; rfl
  · exact step_at_w3b _ hr hq
  · rw [step_at_w4 (s.withUnread u) hr hq, doW4, afterRegRead_withUnread]; rfl
  · exact step_at_w5 _ hr hq
  · exact step_at_w6 _ hr hq
  · exact step_at_w7 _ hr hq

/-- A state is itself with its own values of this, so the step leaves what its position makes of them. -/
theorem unread_of_step {s t : State} (hr : s.resetIn = false) (hp : s.pos ≠ .idle) (h : step s = .next t) :
    t.unread = s.unread.after s.pos := by
  have hsame : step s = .next (t.withUnread (s.unread.after s.pos)) := step_withUnread s.unread hr hp h
  exact congrArg State.unread (Host.Outcome.next.inj (h.symm.trans hsame))

/-- The state after the step, in the form `step_withUnread` gives it. -/
theorem withUnread_of_step {s t : State} (hr : s.resetIn = false) (hp : s.pos ≠ .idle) (h : step s = .next t) :
    t = t.withUnread (s.unread.after s.pos) := by
  rw [← unread_of_step hr hp h]; rfl

/-- What HOST and the bench present is held while an operation is in progress (R144, R155; log 2). -/
theorem presented_of_step {s t : State} (hr : s.resetIn = false) (hp : s.pos ≠ .idle) (h : step s = .next t) :
    t.port = s.port ∧ t.bench = s.bench :=
  ⟨congrArg Unread.port (unread_of_step hr hp h), congrArg Unread.bench (unread_of_step hr hp h)⟩

/-- Settles O7: what is presented is none of what a step of an operation looks at, and a request looks first whether the block is ready. -/
theorem requestsAreHeldWhileNotReady : Obligations.RequestsAreHeldWhileNotReady := by
  refine ⟨fun s t q k hr hp h => ?_, fun s c d op hp i hi => ?_⟩
  · obtain ⟨hport, hbench⟩ := presented_of_step hr hp h
    have hstep := step_withUnread { s.unread with port := q, bench := k } hr hp h
    refine ⟨hport, hbench, hstep.trans (congrArg _ ?_)⟩
    conv_rhs => rw [withUnread_of_step hr hp h]
    rfl
  · simp only [List.mem_cons, List.not_mem_nil, or_false] at hi
    rcases hi with rfl | rfl | rfl | rfl | rfl | rfl | rfl | rfl | rfl <;>
      simp only [exec, execIssue, execCheckBusy, execWait, execSlotAddress, execWaWrite, execWaRead, execReservedOp0, execReservedOp7,
        execReservedOp8F, reservedRequest, whenReady_busy s _ hp]

end Sys2Proof.Machine
end

section
/-! PROOFS. What any operation can change, said once for all of them: the parameters, the latch, the work area, the history with the registers,
and the responses (R7, R14 to R22, R94, R98, R144, R156). -/

namespace Sys2Proof.Machine

/-! ### The wait -/

/-- What a stretch of the wait leaves in these: the check and the pulse write no work-area field, W5 and W6 one each (R129, R130), and
the answer, if it is given, is no refusal and ends the operation (R121, R131). -/
structure WaitEffect (s t : State) : Prop where
  cfg : t.cfg = s.cfg
  resetIn : t.resetIn = s.resetIn
  latch : t.saHi = s.saHi ∧ t.saLo = s.saLo ∧ t.saSet = s.saSet
  wa : t.wa = { s.wa with cmdState := t.wa.cmdState, slotIndex := t.wa.slotIndex }
  history : ∃ es, t.history = s.history ++ es ∧ (es = [] → t.regs = s.regs)
  responses : t.responses = s.responses ∨
    t.pos = .idle ∧ ∃ x, t.responses = s.responses ++ [x] ∧ ∀ why, x ≠ .refused why

theorem WaitEffect.refl (s : State) : WaitEffect s s :=
  ⟨rfl, rfl, ⟨rfl, rfl, rfl⟩, rfl, ⟨[], by simp⟩, .inl rfl⟩

/-- Histories and the registers that change only with them compose. -/
theorem history_trans {s t u : State} (h : ∃ es, t.history = s.history ++ es ∧ (es = [] → t.regs = s.regs))
    (h' : ∃ es, u.history = t.history ++ es ∧ (es = [] → u.regs = t.regs)) :
    ∃ es, u.history = s.history ++ es ∧ (es = [] → u.regs = s.regs) := by
  obtain ⟨es, he, hregs⟩ := h
  obtain ⟨es', he', hregs'⟩ := h'
  refine ⟨es ++ es', by rw [he', he, List.append_assoc], fun hnil => ?_⟩
  obtain ⟨rfl, rfl⟩ := List.append_eq_nil_iff.1 hnil
  exact (hregs' rfl).trans (hregs rfl)

/-- A stretch goes on only where the operation has not ended, so it answers once at most. -/
theorem WaitEffect.trans {s t u : State} (h : WaitEffect s t) (hp : t.pos ≠ .idle) (h' : WaitEffect t u) : WaitEffect s u where
  cfg := h'.cfg.trans h.cfg
  resetIn := h'.resetIn.trans h.resetIn
  latch := by simpa only [h.latch] using h'.latch
  wa := by rw [h'.wa, h.wa]
  history := history_trans h.history h'.history
  responses := by
    rcases h.responses with hsame | ⟨hidle, -⟩
    · rw [← hsame]; exact h'.responses
    · exact absurd hidle hp

theorem waitEffect_of_c1d {s t : State} (h : decideC1d (doC1dRead s) = .next t) : WaitEffect s t := by
  rcases decideC1d_cases _ t h with ⟨_, rfl⟩ | ⟨_, _, rfl⟩ | ⟨_, _, rfl⟩ <;> constructor <;> simp [doC1dRead, State.afterRegRead]

/-- The decision of C1d writes no work-area field. -/
theorem wa_of_c1d {s t : State} (h : decideC1d (doC1dRead s) = .next t) : t.wa = s.wa := by
  rcases decideC1d_cases _ t h with ⟨_, rfl⟩ | ⟨_, _, rfl⟩ | ⟨_, _, rfl⟩ <;> simp [doC1dRead, State.afterRegRead]

theorem waitEffect_of_waitStep {s t : State} (h : waitStep s = .next t) : WaitEffect s t := by
  rcases waitStep_cases s t h with ⟨_, rfl⟩ | ⟨_, rfl⟩ | ⟨_, rfl⟩ | ⟨_, hd⟩ | ⟨_, rfl⟩ | ⟨_, rfl⟩ | ⟨_, rfl⟩ | ⟨_, rfl⟩ | ⟨_, rfl⟩ |
    ⟨_, rfl⟩ | ⟨_, rfl⟩
  pick_goal 4
  · exact waitEffect_of_c1d hd
  all_goals
    constructor <;> simp [doC1a, doC1b, doC1c, doW2, doW3a, doW3b, doW4, doW5, doW6, doW7, State.regWrite, State.afterRegRead,
      advanceState, resetSlot]

theorem waitEffect_of_runWait : ∀ (n : Nat) (s t : State), runWait n s = .next t → WaitEffect s t := by
  refine runWait_induction WaitEffect .refl (fun s t hw _ => waitEffect_of_waitStep hw) fun s t u hw hgoes hmore => ?_
  have hp : t.pos ≠ .idle := by rintro hidle; simp [waitTurns, hidle] at hgoes
  exact (waitEffect_of_waitStep hw).trans hp hmore

/-! ### Every operation -/

/-- The block itself writes three fields of the work area, each by its own operations alone (R113, R129, R130). -/
abbrev OwnWrites (i : Instr) (w w' : WorkArea) : Prop :=
  w' = { w with opCounter := w'.opCounter, cmdState := w'.cmdState, slotIndex := w'.slotIndex } ∧
  (w'.slotIndex ≠ w.slotIndex → i = .stepW6 ∨ i = .slotReset ∨ i = .waitCompletion) ∧
  (w'.opCounter ≠ w.opCounter → i = .stepI9 ∨ i = .opcntSet ∨ i = .build) ∧
  (w'.cmdState ≠ w.cmdState → i = .stepW5 ∨ i = .stateAdvance ∨ i = .waitCompletion)

/-- What an operation that answers a next state can have changed. -/
structure ExecEffect (i : Instr) (s t : State) : Prop where
  cfg : t.cfg = s.cfg
  resetIn : t.resetIn = s.resetIn
  latch : i ≠ .slotAddress → t.saHi = s.saHi ∧ t.saLo = s.saLo ∧ t.saSet = s.saSet
  wa : (∃ c d f, i = .waWrite c d ∧ waFieldOf c = some f ∧ t.wa = waSet s.wa f d) ∨ OwnWrites i s.wa t.wa
  history : ∃ es, t.history = s.history ++ es ∧ (es = [] → t.regs = s.regs)
  responses : t.responses = s.responses ∨ ∃ x, t.responses = s.responses ++ [x] ∧ ∀ why, x = .refused why → t = s.refuse why

theorem WaitEffect.exec {s t : State} (h : WaitEffect s t) {i : Instr}
    (hi : i = .stepC1d ∧ t.wa = s.wa ∨ i = .waitCompletion) : ExecEffect i s t where
  cfg := h.cfg
  resetIn := h.resetIn
  latch := fun _ => h.latch
  wa := by
    right
    rcases hi with ⟨-, hwa⟩ | rfl
    · simp [OwnWrites, hwa]
    · rw [OwnWrites, h.wa]; simp
  history := h.history
  responses := h.responses.imp_right fun ⟨_, x, hx, hne⟩ => ⟨x, hx, fun why e => absurd e (hne why)⟩

theorem exec_effect (i : Instr) (s t : State) (h : exec i s = .next t) : ExecEffect i s t := by
  rcases exec_leaves i s t h
  case c1d hd => exact (waitEffect_of_c1d hd).exec (.inl ⟨rfl, wa_of_c1d hd⟩)
  case wait hw => exact (waitEffect_of_runWait 11 s t hw).exec (.inr rfl)
  case field c d f hp hf =>
    exact ⟨rfl, rfl, fun _ => ⟨rfl, rfl, rfl⟩, .inl ⟨c, d, f, rfl, hf, rfl⟩, ⟨[], by simp⟩, .inr ⟨.ok, rfl, nofun⟩⟩
  case respond x hp =>
    exact ⟨rfl, rfl, fun _ => ⟨rfl, rfl, rfl⟩, .inr (by simp [OwnWrites]), ⟨[], by simp⟩, .inr ⟨x, rfl, fun why e => by rw [e]; rfl⟩⟩
  all_goals
    constructor <;> simp [OwnWrites, doI1, doI2, doI3, doI4a, doI4b, doI4c, doI5, doI6, doI7, doI8, doI9, doI1toI7, doC1a, doC1b, doC1c,
      doW2, doW3a, doW3b, doW4, doW5, doW6, doW7, State.regWrite, State.afterRegRead, State.afterMemRead, State.memWrite,
      advanceState, resetSlot, setOpCounter]

/-- Settles O17: of the operations that add a response, one that adds a refusal does nothing else. -/
theorem refusalsChangeNothingElse : Obligations.RefusalsChangeNothingElse := by
  intro i s t why h hresp
  rcases (exec_effect i s t h).responses with hsame | ⟨x, hx, honly⟩
  · simp [hsame] at hresp
  · rw [hx, List.append_cancel_left_eq, List.singleton_inj] at hresp
    exact honly why hresp

/-- Settles O53, by what any operation can have changed. -/
theorem historyAndResponsesOnlyGrow : Obligations.HistoryAndResponsesOnlyGrow := by
  intro i s t h
  obtain ⟨hcfg, -, -, -, hhistory, hresp⟩ := exec_effect i s t h
  refine ⟨hcfg, hhistory, ?_⟩
  rcases hresp with hsame | ⟨x, hx, -⟩
  · exact ⟨[], by simp [hsame], by simp⟩
  · exact ⟨[x], hx, by simp⟩

/-! ### Which field of the work area -/

/-- A field's code is the only one that names it (R85). -/
theorem code_of_waFieldOf {c : BitVec 4} {f : WaField} (h : waFieldOf c = some f) : c = waFieldCode f := by
  revert h; cases f <;> revert c <;> decide

/-- Settles O54: WA_WRITE writes the field of its code, and no other operation writes another field than the block's own three. -/
theorem fieldsAreWrittenOnlyByTheirOperations : Obligations.FieldsAreWrittenOnlyByTheirOperations := by
  intro i s t h
  rcases (exec_effect i s t h).wa with ⟨c, d, f, rfl, hf, hwa⟩ | ⟨hothers, hslot, hcount, hstate⟩
  · obtain rfl := code_of_waFieldOf hf
    rw [hwa]
    cases f <;> simp [waSet, waFieldCode]
  · exact ⟨fun hne => (hslot hne).imp_right (.imp_right .inl), fun hne => (hcount hne).imp_right (.imp_right .inl),
      fun hne => (hstate hne).imp_right (.imp_right .inl), fun hne => absurd (congrArg WorkArea.cmdStatus hothers) hne,
      fun hne => absurd (congrArg WorkArea.mode hothers) hne, fun hne => absurd (congrArg WorkArea.param0 hothers) hne,
      fun hne => absurd (congrArg WorkArea.param1 hothers) hne, fun hne => absurd (congrArg WorkArea.lba0 hothers) hne,
      fun hne => absurd (congrArg WorkArea.lba1 hothers) hne, fun hne => absurd (congrArg WorkArea.lba2 hothers) hne,
      fun hne => absurd (congrArg WorkArea.lba3 hothers) hne⟩

/-! ### The latch, and the state no step of an operation looks at -/

/-- Settles O55: the latch by what any operation can change, the rest by what a step of an operation looks at. -/
theorem unreadStateNeverMatters : Obligations.UnreadStateNeverMatters := by
  refine ⟨fun i s t h hlatch => ?_, fun s t x y hi lo b hr hp h => ?_, fun s t z k hr hp h => ?_⟩
  · by_contra hne
    obtain ⟨hhi, hlo, hset⟩ := (exec_effect i s t h).latch hne
    simp [hhi, hlo, hset] at hlatch
  · have hstep := step_withUnread { s.unread with param0 := x, param1 := y, saHi := hi, saLo := lo, saSet := b } hr hp h
    refine hstep.trans (congrArg _ ?_)
    conv_rhs => rw [withUnread_of_step hr hp h]
    rfl
  · have hstep := step_withUnread { s.unread with opCounter := z, slotIndex := k } hr hp h
    refine hstep.trans (congrArg _ ?_)
    conv_rhs => rw [withUnread_of_step hr hp h]
    simp +contextual only [State.withUnread, Unread.after, State.unread, if_true]

end Sys2Proof.Machine
end

section
/-! PROOFS. The access matrix (R41, R86), and the phase by position and operation (R27, R138). -/

namespace Sys2Proof.Machine

/-! ### Transactions -/

/-- At IDLE with the bench empty no step changes a register, makes a transaction or fills the bench (R98, D3). -/
theorem idle_step_keeps_registers {s t : State} (hp : s.pos = .idle) (hb : s.bench = none) (h : step s = .next t) :
    t.regs = s.regs ∧ t.history = s.history ∧ t.bench = s.bench := by
  rcases step_next_cases s t h with ⟨_, rfl⟩ | ⟨_, hne, _⟩ | ⟨_, _, _, _, rfl⟩ | ⟨_, _, _, w, rest, _, hx⟩ | ⟨_, _, w, i, hw, _⟩
  · exact ⟨rfl, rfl, rfl⟩
  · exact absurd hp hne
  · exact ⟨rfl, rfl, rfl⟩
  · exact request_keeps_registers { s with port := rest } t w hp hx
  · rw [hb] at hw; cases hw

theorem bench_stays_empty {s t : State} (hb : s.bench = none) (h : step s = .next t) : t.bench = none := by
  cases hr : s.resetIn with
  | true =>
    cases (step_of_reset s hr).symm.trans h
    exact hb
  | false =>
    by_cases hp : s.pos = .idle
    · exact (idle_step_keeps_registers hp hb h).2.2.trans hb
    · exact (presented_of_step hr hp h).2.trans hb

/-- What a position drives and what its step leaves: no transaction, the matrix's read, or the matrix's write (R41, R86). -/
def Drives (s t : State) : Prop :=
  (matrixReads s.pos = none ∧ matrixWrites s.pos = none ∧ busWordAt s = none ∧ t.history = s.history ∧ t.regs = s.regs) ∨
  (∃ (r : Reg) (v : Byte), matrixReads s.pos = some r ∧ t.history = s.history ++ [.read (s.cfg.addrs.addrOf r) v] ∧
    busWordAt s = some (eventWord (.read (s.cfg.addrs.addrOf r) v)) ∧ t.regs = s.regs) ∨
  (∃ (r : Reg) (v : Byte), matrixWrites s.pos = some r ∧ t.history = s.history ++ [.write (s.cfg.addrs.addrOf r) v] ∧
    busWordAt s = some (eventWord (.write (s.cfg.addrs.addrOf r) v)))

theorem drives_of_step {s t : State} (hr : s.resetIn = false) (hp : s.pos ≠ .idle) (h : step s = .next t) : Drives s t := by
  rcases step_in_progress s t hr hp h with ⟨hq, rfl⟩ | ⟨hq, rfl⟩ | ⟨hq, rfl⟩ | ⟨hq, rfl⟩ | ⟨hq, rfl⟩ | ⟨hq, rfl⟩ | ⟨hq, rfl⟩ |
    ⟨hq, rfl⟩ | ⟨hq, rfl⟩ | ⟨hq, v, hv, rfl⟩ | ⟨hq, rfl⟩ | ⟨hq, rfl⟩ | ⟨hq, rfl⟩ | ⟨hq, rfl⟩ | ⟨hq, hd⟩ | ⟨hq, rfl⟩ | ⟨hq, rfl⟩ |
    ⟨hq, rfl⟩ | ⟨hq, rfl⟩ | ⟨hq, rfl⟩ | ⟨hq, rfl⟩ | ⟨hq, rfl⟩
  pick_goal 15
  · rcases decideC1d_cases _ t hd with ⟨_, rfl⟩ | ⟨_, _, rfl⟩ | ⟨_, _, rfl⟩ <;>
      simp [Drives, hq, matrixReads, matrixWrites, busWordAt, eventWord, AddressMap.addrOf, doC1dRead, State.afterRegRead]
  all_goals
    simp [*, Drives, matrixReads, matrixWrites, busWordAt, eventWord, AddressMap.addrOf, doI1, doI2, doI3, doI4a, doI4b, doI4c, doI5,
      doI6, doI7, doI8, doI9, doC1a, doC1b, doC1c, doW2, doW3a, doW3b, doW4, doW5, doW6, doW7, State.regWrite, State.afterRegRead,
      advanceState, resetSlot, setOpCounter]

/-- Settles O52: at IDLE nothing is driven, the bench stays empty, and away from IDLE each position drives its own. -/
theorem transactionsStayInTheAccessMatrix : Obligations.TransactionsStayInTheAccessMatrix :=
  ⟨fun _ _ hp hb h => ⟨(idle_step_keeps_registers hp hb h).1, (idle_step_keeps_registers hp hb h).2.1⟩, rfl,
    fun _ _ hb h => bench_stays_empty hb h, fun _ _ hr hp h => drives_of_step hr hp h⟩

/-! ### Phases -/

/-- For an ISSUE or a WAIT, and at IDLE, the phase follows the place of the position in the order of steps (R27). -/
theorem phaseOf_by_rank {op : CurOp} (hop : op ≠ .checkBusy) (p : Pos) : phaseOf p op =
    if posRank p = 0 then .idle
    else if posRank p ≤ 10 then .building
    else if posRank p = 11 then .triggered
    else if posRank p ≤ 21 then .waiting
    else .complete := by
  cases p <;> simp [phaseOf, posRank, hop]

theorem phaseOf_checkBusy (p : Pos) : phaseOf p .checkBusy = .idle := if_pos rfl

/-- Settles O47: a CHECK_BUSY has the phase IDLE throughout, and for the others the phase is that of the position. -/
theorem phaseFollowsThePosition : Obligations.PhaseFollowsThePosition := by
  rintro s ⟨hnone, hcheck, -⟩
  refine ⟨s.phase, rfl, ?_⟩
  cases hc : s.curOp with
  | none => simp [State.phase, phaseOf, hnone.1 hc]
  | checkBusy =>
    have hrank := hcheck hc
    rw [State.phase, hc, phaseOf_checkBusy]
    cases hp : s.pos <;> simp [hp, posRank] at hrank ⊢
  | issue | wait => cases hp : s.pos <;> simp [State.phase, phaseOf, hp, hc]

theorem posRank_le (p : Pos) : posRank p ≤ 22 := by
  cases p <;> decide

/-- Along the order of steps the phase moves along its table, and a poll that turns back keeps it in WAITING (R138, R139). -/
theorem phaseMoves_of_advance {s t : State} (h : Advances s t) (hs : s.pos ≠ .idle) (hop : t.curOp = s.curOp) :
    phaseMoves s.phase t.phase = true := by
  rw [State.phase, State.phase, hop]
  by_cases hc : s.curOp = .checkBusy
  · rw [hc, phaseOf_checkBusy, phaseOf_checkBusy]; rfl
  · have hstart : posRank s.pos ≠ 0 := posRank_injective.ne (a₂ := .idle) hs
    have hend := posRank_le t.pos
    rw [phaseOf_by_rank hc, phaseOf_by_rank hc]
    rcases h with h | ⟨hq, ht⟩ | ⟨hq, ht⟩
    · rw [h] at hend ⊢
      split_ifs <;> simp [phaseMoves] <;> omega
    · simp [hq, ht, posRank, phaseMoves]
    · simp [hq, ht, posRank, phaseMoves]

theorem phase_of_idle {s : State} (hp : s.pos = .idle) : s.phase = .idle := by
  rw [State.phase, hp]
  cases s.curOp <;> rfl

/-- An operation ends from the check of a CHECK_BUSY, whose phase is IDLE, or from W7, whose phase is COMPLETE (R121, R131). -/
theorem phaseMoves_of_end {s t : State} (hr : s.resetIn = false) (hp : s.pos ≠ .idle) (h : step s = .next t) (ht : t.pos = .idle) :
    phaseMoves s.phase t.phase = true := by
  rw [phase_of_idle ht]
  rcases responses_of_step s t hr hp h with ⟨hne, -⟩ | ⟨-, hc, -⟩ | ⟨-, hq, -⟩
  · exact absurd ht hne
  · rw [State.phase, hc, phaseOf_checkBusy]; rfl
  · rw [State.phase, hq]; cases s.curOp <;> rfl

/-- From IDLE a request begins the build, or a check, or a wait, or leaves the block there (R145, R149, R150). -/
theorem phaseMoves_of_request {s t : State} {w : ReqWord} (hp : s.pos = .idle) (h : exec (decodeReq w) s = .next t) :
    phaseMoves .idle t.phase = true := by
  have stays : t.pos = .idle → phaseMoves .idle t.phase = true := fun ht => by rw [phase_of_idle ht]; rfl
  rcases request_cases s t w hp h with ⟨x, rfl⟩ | ⟨f, d, rfl⟩ | rfl | ⟨_, _, rfl⟩ | rfl | ⟨_, rfl⟩
  · exact stays hp
  · exact stays hp
  · exact stays hp
  all_goals rfl

theorem pos_of_bench {s t : State} {w : BenchWord} {i : Instr} (hd : decode w.coded = .ok i) (h : exec i s = .next t) :
    t.pos = s.pos := by
  rcases bench_cases i s t w hd h with ⟨a, x, rfl⟩ | ⟨a, v, rfl⟩ | ⟨x, rfl⟩ <;> simp [State.afterMemRead, State.memWrite]

/-- Settles O48, by what a step can be. -/
theorem phasesFollowTheTable : Obligations.PhasesFollowTheTable := by
  intro s t _ hr h
  rcases step_next_cases s t h with ⟨hreset, _⟩ | ⟨_, hp, _⟩ | ⟨_, hp, _, _, rfl⟩ | ⟨_, hp, _, w, rest, _, hx⟩ |
    ⟨_, hp, w, i, _, hd, hx⟩
  · rw [hr] at hreset; cases hreset
  · rcases (stepWrites_of_step s t hr hp h).moves with ⟨ht, -⟩ | ⟨-, hop, hadv, -⟩
    · exact phaseMoves_of_end hr hp h ht
    · exact phaseMoves_of_advance hadv hp hop
  · rw [phase_of_idle hp]; rfl
  · rw [phase_of_idle hp]; exact phaseMoves_of_request (s := { s with port := rest }) hp hx
  · rw [phase_of_idle hp, phase_of_idle ((pos_of_bench hd hx).trans hp)]; rfl

end Sys2Proof.Machine
end

section
/-! PROOFS. Reset (R173 to R179), and what the block does when it accepts each request (R144 to R154). -/

namespace Sys2Proof.Machine

/-! ### Reset -/

/-- Settles O8: each is a field of the reset state. -/
theorem resetLeavesTheStatedValues : Obligations.ResetLeavesTheStatedValues :=
  ⟨rfl, rfl, rfl, rfl, rfl, rfl, rfl, rfl, rfl, rfl, rfl, rfl, rfl, rfl, rfl, rfl, rfl, rfl, rfl⟩

/-- Settles O9: a step with the input asserted is the reset of the block. -/
theorem resetInputAbandonsTheOperation : Obligations.ResetInputAbandonsTheOperation := fun s hr =>
  ⟨s.blockReset, step_of_reset s hr, rfl, rfl, rfl, rfl, rfl, rfl, rfl, rfl, rfl, rfl, rfl, rfl, rfl, rfl⟩

/-! ### ISSUE -/

/-- The six fields ISSUE reads (R145). -/
theorem issueFieldsWritten_eq_false_iff (w : WorkArea) : issueFieldsWritten w = false ↔
    w.lba0 = none ∨ w.lba1 = none ∨ w.lba2 = none ∨ w.lba3 = none ∨ w.mode = none ∨ w.cmdStatus = none := by
  simp only [issueFieldsWritten, Bool.and_eq_false_iff, Option.isSome_eq_false_iff, Option.isNone_iff_eq_none, or_assoc]

/-- With its fields written ISSUE asks for the mode (R145, R146). -/
theorem exec_issue_written {s : State} {l0 l1 l2 l3 m st : Byte} (hp : s.pos = .idle) (h0 : s.wa.lba0 = some l0)
    (h1 : s.wa.lba1 = some l1) (h2 : s.wa.lba2 = some l2) (h3 : s.wa.lba3 = some l3) (hm : s.wa.mode = some m)
    (hst : s.wa.cmdStatus = some st) : exec .issue s =
      if admittedMode s.cfg.modeOther m then .next ((s.setOp .issue).goto .i1) else .next (s.refuse .badMode) := by
  have hwritten : issueFieldsWritten s.wa = true := by simp [issueFieldsWritten, h0, h1, h2, h3, hm, hst]
  simp [exec, execIssue, whenReady_ready s _ hp, acceptIssue, hwritten, hm]

theorem admittedMode_iff (mo : ModeOther) (m : Byte) :
    admittedMode mo m = true ↔ m = 1 ∨ m = 2 ∨ m = 3 ∨ mo = .asMode1 := by
  cases mo <;> simp [admittedMode, or_assoc]

/-- Settles O10: the mode is admitted. -/
theorem issueAcceptedStartsTheBuild : Obligations.IssueAcceptedStartsTheBuild := by
  intro s l0 l1 l2 l3 m st hp h0 h1 h2 h3 hm hst hmode
  rw [exec_issue_written hp h0 h1 h2 h3 hm hst, if_pos ((admittedMode_iff _ _).2 hmode)]
  rfl

/-- Settles O11: ISSUE looks at the fields before the mode. -/
theorem issueRefusesUnwrittenFieldsThenTheMode : Obligations.IssueRefusesUnwrittenFieldsThenTheMode := by
  refine ⟨fun s hp hnone => ?_, fun s l0 l1 l2 l3 m st hp h0 h1 h2 h3 hm hst hmo hm1 hm2 hm3 => ?_⟩
  · rw [exec, execIssue, whenReady_ready s _ hp, acceptIssue, if_pos ((issueFieldsWritten_eq_false_iff s.wa).2 hnone)]
    rfl
  · have hrefused : ¬ admittedMode s.cfg.modeOther m = true := by
      rw [admittedMode_iff, hmo]
      simpa using ⟨hm1, hm2, hm3⟩
    rw [exec_issue_written hp h0 h1 h2 h3 hm hst, if_neg hrefused]
    rfl

/-! ### CHECK_BUSY, WAIT and SLOT_ADDRESS -/

/-- Settles O12: both begin at C1a, WAIT with a status only. -/
theorem checkBusyAndWaitEnterTheCheck : Obligations.CheckBusyAndWaitEnterTheCheck := by
  intro s hp
  have hwait : exec .wait s = acceptWait s := whenReady_ready s _ hp
  refine ⟨by rw [exec, execCheckBusy, whenReady_ready s _ hp]; rfl, fun st hst => ?_, fun hst => ?_⟩
  · rw [hwait, acceptWait, hst]; rfl
  · rw [hwait, acceptWait, hst]; rfl

/-- Settles O13: the address latched and answered is `slotAddr` of the slot index. -/
theorem slotAddressLatchesAndAnswers : Obligations.SlotAddressLatchesAndAnswers := fun s hp =>
  ⟨slotAddr s.wa.slotIndex, slotAddr_toNat _, by rw [exec, execSlotAddress, whenReady_ready s _ hp]; rfl⟩

/-! ### WA_WRITE and WA_READ -/

theorem waFieldOf_reserved {c : BitVec 4} (h : 10 < c.toNat) : waFieldOf c = none := by
  rw [← Option.not_isSome_iff_eq_none, waFieldOf_isSome]
  omega

/-- Settles O14: the field each code names. -/
theorem waWriteStoresItsField : Obligations.WaWriteStoresItsField := by
  intro s d hp
  refine ⟨fun p hmem => ?_, fun c hc => ?_⟩
  · have hfield : ∃ f, waFieldOf p.1 = some f ∧ waSet s.wa f d = p.2 := by
      simp only [List.mem_cons, List.not_mem_nil, or_false] at hmem
      rcases hmem with rfl | rfl | rfl | rfl | rfl | rfl | rfl | rfl | rfl | rfl | rfl <;> exact ⟨_, rfl, rfl⟩
    obtain ⟨f, hf, hset⟩ := hfield
    rw [exec, execWaWrite, whenReady_ready s _ hp, hf, ← hset]
    rfl
  · rw [exec, execWaWrite, whenReady_ready s _ hp, waFieldOf_reserved hc]
    rfl

/-- Settles O15: the field each code names, where it has a value. -/
theorem waReadAnswersItsField : Obligations.WaReadAnswersItsField := by
  intro s hp
  refine ⟨fun p hmem => ?_, fun c hc => ?_⟩
  · have hfield : ∃ f, waFieldOf p.1 = some f ∧ waGet s.wa f = p.2 := by
      simp only [List.mem_cons, List.not_mem_nil, or_false] at hmem
      rcases hmem with rfl | rfl | rfl | rfl | rfl | rfl | rfl | rfl | rfl | rfl | rfl <;> exact ⟨_, rfl, rfl⟩
    obtain ⟨f, hf, hget⟩ := hfield
    refine ⟨fun v hv => ?_, fun hnone => ?_⟩
    · simp only [exec, execWaRead, whenReady_ready s _ hp, hf, hget, hv]
      rfl
    · simp only [exec, execWaRead, whenReady_ready s _ hp, hf, hget, hnone]
      rfl
  · rw [exec, execWaRead, whenReady_ready s _ hp, waFieldOf_reserved hc]
    rfl

/-- Settles O16: the three rows share one meaning. -/
theorem reservedRequestsAnswerReservedOp : Obligations.ReservedRequestsAnswerReservedOp := by
  intro s op hp
  have hrefused : reservedRequest s = .next { s with responses := s.responses ++ [.refused .reservedOp] } := whenReady_ready s _ hp
  exact ⟨hrefused, hrefused, hrefused⟩

end Sys2Proof.Machine
end

section
/-! PROOFS. The multiplexer and the exposed accesses (R95 to R97), and the slot windows (R59, R82, R135). -/

namespace Sys2Proof.Machine

/-! ### Slot windows -/

/-- Settles O45: the slot and the offset are 3 and 5 bits, so each of the windows' 256 bytes is looked at. -/
theorem windowDecodeInvertsTheSlotAddress : Obligations.WindowDecodeInvertsTheSlotAddress := by
  have hdecode : ∀ (slot : BitVec 3) (k : BitVec 5),
      inWindows (slotAddr slot + k.setWidth 16) = true ∧ windowSlot (slotAddr slot + k.setWidth 16) = slot ∧
      windowOffset (slotAddr slot + k.setWidth 16) = k := by decide
  have hshape : ∀ slot : BitVec 3, (slotAddr slot).extractLsb' 0 5 = 0b00010#5 ∧ (slotAddr slot).extractLsb' 5 3 = slot + 2 ∧
      (slotAddr slot).extractLsb' 8 8 = (if slot.toNat ≤ 5 then 0xE4 else 0xE5) := by decide
  intro slot k
  obtain ⟨hlow, hmid, hhigh⟩ := hshape slot
  exact ⟨hlow, hmid, hhigh, by rw [windowByteAddr, latchAddr_hi_lo], hdecode slot k⟩

/-! ### The multiplexer -/

theorem muxSel_window {m : AddressMap} {addr : Address} {slot : BitVec 3} {offset : BitVec 5} (hunnamed : ∀ r, addr ≠ m.addrOf r)
    (haddr : addr.toNat = 0xE442 + slot.toNat * 32 + offset.toNat) : muxSel m addr = .window slot offset := by
  have hsum : addr = slotAddr slot + offset.setWidth 16 := by
    have hslot := slot.isLt
    have hoffset := offset.isLt
    apply BitVec.eq_of_toNat_eq
    rw [BitVec.toNat_add, slotAddr_toNat, BitVec.toNat_setWidth]
    omega
  obtain ⟨-, -, -, -, hin, hslot, hoffset⟩ := windowDecodeInvertsTheSlotAddress slot offset
  rw [muxSel_unnamed m addr hunnamed, hsum, if_pos hin, hslot, hoffset]

theorem muxSel_outside {m : AddressMap} {addr : Address} (hunnamed : ∀ r, addr ≠ m.addrOf r)
    (haddr : addr.toNat < 0xE442 ∨ 0xE541 < addr.toNat) : muxSel m addr = .nothing := by
  have hout : ¬ inWindows addr = true := by
    simp only [inWindows, Bool.and_eq_true, decide_eq_true_eq, BitVec.le_def, show slotBase.toNat = 0xE442 from rfl,
      show windowLast.toNat = 0xE541 from rfl]
    omega
  rw [muxSel_unnamed m addr hunnamed, if_neg hout]

theorem exec_muxSel {s : State} {addr : Address} {sel : Selection} (h : muxSel s.cfg.addrs addr = sel) :
    exec (.muxSel addr) s = .next { s with result := .selection sel } := by
  rw [← h]; rfl

/-- Settles O20: named, in a window, or neither. -/
theorem multiplexerSelectsNamedThenWindows : Obligations.MultiplexerSelectsNamedThenWindows := fun _ =>
  ⟨fun r => exec_muxSel (muxSel_addrOf _ r), fun _ _ _ hunnamed haddr => exec_muxSel (muxSel_window hunnamed haddr),
    fun _ hunnamed haddr => exec_muxSel (muxSel_outside hunnamed haddr)⟩

/-! ### BITTEST and SETBIT -/

/-- Settles O21: SETBIT's second half writes where its first half has left the result as it was. -/
theorem bitTestSelectsAndSetBitReadsThenWrites : Obligations.BitTestSelectsAndSetBitReadsThenWrites := by
  refine ⟨fun s v i => ?_, fun s addr i => ?_⟩
  · rw [← bitTest_eq]; rfl
  · have hresult : ({ (s.afterMemRead addr).deliver (.byte (s.memRead addr)) with result := s.result } : State) =
        s.afterMemRead addr := by
      have hkept : (s.afterMemRead addr).result = s.result := State.afterReadOf_result s addr _
      rw [← hkept]; rfl
    refine ⟨s.memRead addr, _, _, rfl, rfl, by rw [hresult]; rfl, ?_⟩
    rw [← withBitSet_eq]; rfl

end Sys2Proof.Machine
end

section
/-! PROOFS. The descriptor builder's functions and images (R69, R100, R101, R116), and its steps where their case is another: a mode that is
neither 1, 2 nor 3, a field without a value, another position (R100, R112, R21, R23). -/

namespace Sys2Proof.Machine

/-! ### TRIGSEL, ISSUEBITS and DESC -/

/-- A mode other than 1, 2 and 3 has the trigger value of mode 1 under `as_mode1` (R100, D7). -/
theorem trigSel_asMode1 {mo : ModeOther} {m : Byte} (hmo : mo = .asMode1) (h2 : m ≠ 2) (h3 : m ≠ 3) : trigSel mo m = some trigM1 := by
  rw [trigSel_of_admitted (by rw [hmo]; rfl), if_neg (not_or.2 ⟨h2, h3⟩)]

theorem admittedMode_refused {mo : ModeOther} {m : Byte} (hmo : mo = .refuse) (h1 : m ≠ 1) (h2 : m ≠ 2) (h3 : m ≠ 3) :
    admittedMode mo m = false := by
  rw [← Bool.not_eq_true, admittedMode_iff, hmo]
  rintro (h | h | h | h)
  · exact h1 h
  · exact h2 h
  · exact h3 h
  · cases h

theorem exec_trigSel_value {s : State} {m v : Byte} (h : trigSel s.cfg.modeOther m = some v) :
    exec (.trigSel m) s = .next { s with result := .byte v } := by
  rw [exec, execTrigSel, h]; rfl

theorem exec_trigSel_refused {s : State} {m : Byte} (h : trigSel s.cfg.modeOther m = none) :
    exec (.trigSel m) s = .next { s with result := .refused .badMode } := by
  rw [exec, execTrigSel, h]; rfl

theorem issueBits_toNat (p : Byte) : (issueBits p).toNat = p.toNat / 64 := by
  revert p; decide

/-- Settles O23, by the trigger value of each mode. -/
theorem triggerSelectionAndIssueBits : Obligations.TriggerSelectionAndIssueBits := by
  intro s m
  refine ⟨fun h23 => exec_trigSel_value (if_pos h23), fun h1 => ?_, fun _ h2 h3 hmo => exec_trigSel_value (trigSel_asMode1 hmo h2 h3),
    fun h1 h2 h3 hmo => exec_trigSel_refused (trigSel_of_not_admitted (admittedMode_refused hmo h1 h2 h3)),
    issueBits m, issueBits_toNat m, rfl⟩
  subst h1
  exact exec_trigSel_value rfl

theorem exec_desc_image {s : State} {l : Lba} {m : Byte} {w : Image} (h : descOf s.cfg.modeOther l m = some w) :
    exec (.desc l m) s = .next { s with result := .image w } := by
  rw [exec, execDesc, h]; rfl

theorem exec_desc_refused {s : State} {l : Lba} {m : Byte} (h : descOf s.cfg.modeOther l m = none) :
    exec (.desc l m) s = .next { s with result := .refused .badMode } := by
  rw [exec, execDesc, h]; rfl

/-- The eight bytes in image order (R69, R116). -/
theorem descImage_eq (l0 l1 l2 l3 trig : Byte) : descImage l0 l1 l2 l3 trig =
    0x32#8 ++ 0x90#8 ++ 0x01#8 ++ 0x14#8 ++ l1 ++ (l0 ||| (l3 <<< 2)) ++ (l2 <<< 2) ++ trig := by
  rw [descImage, combine_eq, combine_zero_left, shiftTwo_masked]
  rfl

/-- Settles O25, by the trigger value of each mode and the bytes of the descriptor. -/
theorem descriptorClosedForm : Obligations.DescriptorClosedForm := by
  intro s l m
  refine ⟨fun trig hmode => ?_, fun h1 h2 h3 hmo => ?_, fun h1 h2 h3 hmo => ?_⟩
  · have htrig : trigSel s.cfg.modeOther m = some trig := by
      rcases hmode with ⟨rfl, rfl⟩ | ⟨h23, rfl⟩
      · rfl
      · exact if_pos h23
    rw [exec_desc_image (by rw [descOf, htrig]), descImage_eq]
    rfl
  · exact exec_desc_refused ((descOf_eq_none_iff _ l m).2 (admittedMode_refused hmo h1 h2 h3))
  · have hsame : descOf s.cfg.modeOther l m = descOf s.cfg.modeOther l 1 := by
      rw [descOf, descOf, trigSel_asMode1 hmo h2 h3, trigSel_asMode1 hmo (by decide) (by decide)]
    rw [exec, exec, execDesc, execDesc, hsame]

/-! ### The image rows -/

/-- The registers hold an image where each holds its byte (R69). -/
theorem heldImage_beq_iff (x : EngineRegs) (b c d trig : Byte) :
    (heldImage x == mkImage opcRw stsRw issRw (tagBase ||| tagValid) b c d trig) = true ↔
      x.opcode = 0x32 ∧ x.cmdStatus = 0x90 ∧ x.issue = 0x01 ∧ x.tag = 0x14 ∧ x.lbaR0 = b ∧ x.lbaR1 = c ∧ x.lbaR2 = d ∧
        x.trigger = trig := by
  rw [beq_iff_eq, heldImage, mkImage_inj]
  rfl

/-- Settles O27: each row compares the registers with the image of its own trigger value. -/
theorem descriptorRowsReportTheRegisters : Obligations.DescriptorRowsReportTheRegisters := fun s b c d =>
  ⟨⟨_, rfl, heldImage_beq_iff s.regs b c d 0x40⟩, ⟨_, rfl, heldImage_beq_iff s.regs b c d 0x80⟩⟩

/-! ### Steps out of their case -/

/-- The row of I8 the mode does not select stops (R112; log 13). -/
theorem stepI8With_not_selected {v x : Byte} {s : State} (h : s.trigger = some x) (hx : x ≠ v) :
    stepI8With v s = .refused .notSelected := by
  simp [stepI8With, h, hx]

/-- Without a trigger value both rows do (log 15). -/
theorem stepI8With_no_value {v : Byte} {s : State} (h : s.trigger = none) : stepI8With v s = .fault .modeNotSpecified := by
  simp [stepI8With, h]

theorem trigger_none {s : State} (h : s.wa.mode = none ∨
    ∃ m, s.wa.mode = some m ∧ m ≠ 1 ∧ m ≠ 2 ∧ m ≠ 3 ∧ s.cfg.modeOther = .refuse) : s.trigger = none := by
  rcases h with hm | ⟨m, hm, h1, h2, h3, hmo⟩
  · rw [State.trigger, hm]
  · rw [trigger_of_mode hm, trigSel_of_not_admitted (admittedMode_refused hmo h1 h2 h3)]

/-- The wait has a step at its eleven positions only (R132). -/
theorem waitStep_outside {s : State} (h : s.pos ∉ [Pos.c1a, .c1b, .c1c, .c1d, .w2, .w3a, .w3b, .w4, .w5, .w6, .w7]) :
    waitStep s = .refused .notAtPosition := by
  unfold waitStep
  cases hp : s.pos <;> simp [hp] at h ⊢

theorem execWaitCompletion_outside {s : State} (h : s.curOp = .none ∨ s.curOp = .checkBusy ∨
    s.pos ∉ [Pos.c1a, .c1b, .c1c, .c1d, .w2, .w3a, .w3b, .w4, .w5, .w6, .w7]) :
    execWaitCompletion s = .refused .notAtPosition := by
  unfold execWaitCompletion
  cases hc : s.curOp with
  | none | checkBusy => rfl
  | issue | wait =>
    have hp := (h.resolve_left (by simp [hc])).resolve_left (by simp [hc])
    simp [runWait, waitStep_outside hp]

/-- Settles O32: a step asks for its position first, and I8 then for its trigger value. -/
theorem stepsOutsideTheirCase : Obligations.StepsOutsideTheirCase := by
  refine ⟨fun s m hp hm => ?_, fun s hmode => ?_, fun s p hmem hp => ?_, fun s h => execWaitCompletion_outside h⟩
  · have hM1 : exec .stepI8M1 s = stepI8With trigM1 s := atPos_here .i8 s _ hp
    have hM23 : exec .stepI8M23 s = stepI8With trigM23 s := atPos_here .i8 s _ hp
    have htrigger := trigger_of_mode hm
    rw [hM1, hM23]
    refine ⟨fun h1 h2 h3 hmo => ?_, ?_, fun h23 => stepI8With_not_selected (htrigger.trans (if_pos h23)) (by decide)⟩
    · have hvalue := htrigger.trans (trigSel_asMode1 hmo h2 h3)
      exact ⟨stepI8With_selected hvalue, stepI8With_not_selected hvalue (by decide)⟩
    · rintro rfl
      exact stepI8With_not_selected htrigger (by decide)
  · have hnone := trigger_none hmode
    refine ⟨fun hp => ⟨(atPos_here .i8 s _ hp).trans (stepI8With_no_value hnone),
      (atPos_here .i8 s _ hp).trans (stepI8With_no_value hnone)⟩, fun hp => ?_⟩
    rw [exec, execBuild, atPos_here .i1 s _ hp, hnone]
  · simp only [List.mem_cons, List.not_mem_nil, or_false] at hmem
    rcases hmem with rfl | rfl | rfl | rfl | rfl | rfl | rfl | rfl | rfl | rfl | rfl | rfl | rfl | rfl | rfl | rfl | rfl | rfl | rfl |
      rfl | rfl | rfl | rfl | rfl <;> exact if_neg hp

/-- Settles O34, by what each of the four steps reads in place of the value. -/
theorem lbaAndStatusStepsReadUnwrittenFieldsAsDraws : Obligations.LbaAndStatusStepsReadUnwrittenFieldsAsDraws := by
  intro s
  refine ⟨fun hp h1 => atPos_performs hp ?_, fun l3 hp h0 h3 => atPos_performs hp ?_, fun l0 hp h0 h3 => atPos_performs hp ?_,
    fun hp h0 h3 => atPos_performs hp ?_, fun hp h2 => atPos_performs hp ?_, fun hp hst => atPos_performs hp ?_⟩
  all_goals
    simp [*, doI5, doI6, doI7, doW2, State.fieldValue, State.afterField, regWrite_eq, storeByte, State.goto, AddressMap.addrOf]

/-! ### CLASSIFY -/

theorem classifyFn_of_error {a b : Byte} (h : a.getLsbD 2 = true ∨ a.getLsbD 3 = true) :
    classifyFn (some (a, b)) = .errorPending := by
  have hbusy : busyFn a b = true := (busyFn_eq_true_iff a b).2 (.inr (.inr h))
  have herror : (bitTest a 2 || bitTest a 3) = true := Bool.or_eq_true_iff.2 h
  simp only [classifyFn, hbusy, herror, if_true, Bool.true_eq_false, if_false]

theorem classifyFn_of_busy {a b : Byte} (h : a.getLsbD 1 = true ∨ b.getLsbD 0 = true) (h2 : a.getLsbD 2 = false)
    (h3 : a.getLsbD 3 = false) : classifyFn (some (a, b)) = .busy := by
  have hbusy : busyFn a b = true := (busyFn_eq_true_iff a b).2 (h.imp_right .inl)
  have herror : (bitTest a 2 || bitTest a 3) = false := Bool.or_eq_false_iff.2 ⟨h2, h3⟩
  simp only [classifyFn, hbusy, herror, Bool.false_eq_true, Bool.true_eq_false, if_false]

/-- Settles O37: an error bit, else a busy bit, else none of the four. -/
theorem classificationRefinesBusy : Obligations.ClassificationRefinesBusy := by
  refine ⟨fun s a b => ⟨classifyFn (some (a, b)), rfl, ?_⟩, fun s => rfl⟩
  have hbusy := busyFn_eq_true_iff a b
  by_cases herror : a.getLsbD 2 = true ∨ a.getLsbD 3 = true
  · rw [classifyFn_of_error herror]
    have hset : busyFn a b = true := hbusy.2 (.inr (.inr herror))
    exact ⟨iff_of_false nofun (by rw [hset]; nofun), iff_of_true rfl herror, iff_of_false nofun fun ⟨_, h2, h3⟩ =>
      herror.elim (Bool.eq_false_iff.1 h2) (Bool.eq_false_iff.1 h3)⟩
  · have ⟨h2, h3⟩ : a.getLsbD 2 = false ∧ a.getLsbD 3 = false := by simpa using herror
    by_cases hb : a.getLsbD 1 = true ∨ b.getLsbD 0 = true
    · rw [classifyFn_of_busy hb h2 h3]
      have hset : busyFn a b = true := hbusy.2 (hb.imp_right .inl)
      exact ⟨iff_of_false nofun (by rw [hset]; nofun), iff_of_false nofun herror, iff_of_true rfl ⟨hb, h2, h3⟩⟩
    · have hclear : busyFn a b = false := by
        rw [← Bool.not_eq_true, hbusy]
        tauto
      rw [show classifyFn (some (a, b)) = .idle from if_pos hclear]
      exact ⟨iff_of_true rfl hclear, iff_of_false nofun herror, iff_of_false nofun fun h => hb h.1⟩

/-! ### The reads of a check, and the counters -/

/-- Settles O38, by what each of the three steps reads. -/
theorem checkReadsInOrder : Obligations.CheckReadsInOrder := fun s =>
  ⟨fun hp => atPos_performs hp (doC1a_eq s), fun hp => atPos_performs hp (doC1b_eq s), fun hp => atPos_performs hp (doC1c_eq s)⟩

/-- Settles O46: the sum of three bits is the sum modulo 8. -/
theorem counterOperations : Obligations.CounterOperations := fun s =>
  ⟨⟨s.wa.cmdState + 1, BitVec.toNat_add _ _, rfl⟩, rfl, rfl⟩

end Sys2Proof.Machine
end

section
/-! PROOFS. A whole ISSUE: BUILD as one sequence (R115, R116), and the run from the request to its answer (R148). -/

namespace Sys2Proof.Machine

/-! ### BUILD -/

/-- How TAG reads once 0x04 has been written to it: the byte, and the state but for the draw (R107, D9; log 36). -/
def TagReads (s u : State) (tv : Byte) : Prop :=
  (s.cfg.tagReadback = .storage ∧ tv = 0x04 ∧ u = s) ∨ (s.cfg.tagReadback = .draw ∧ tv = s.drawn ∧ u = s.afterDraw)

theorem TagReads.frame {s u : State} {tv : Byte} (h : TagReads s u tv) :
    u.cfg = s.cfg ∧ u.wa = s.wa ∧ u.regs = s.regs ∧ u.tmp = s.tmp ∧ u.history = s.history := by
  rcases h with ⟨-, -, rfl⟩ | ⟨-, -, rfl⟩ <;> simp

/-- The build up to the read of TAG (R103 to R107). -/
theorem doI1_to_doI4b {s u : State} {tv : Byte} (h : TagReads s u tv) : doI4b (doI4a (doI3 (doI2 (doI1 s)))) = { u with
    regs := { u.regs with opcode := opcRw, cmdStatus := stsRw, issue := issRw, tag := tagBase }
    tmp := { u.tmp with t := tv }
    history := u.history ++ [.write u.cfg.addrs.aOpcode opcRw, .write u.cfg.addrs.aCmdStatus stsRw, .write u.cfg.addrs.aIssue issRw,
      .write u.cfg.addrs.aTag tagBase, .read u.cfg.addrs.aTag tv]
    pos := .i4c } := by
  rcases h with ⟨hrb, rfl, rfl⟩ | ⟨hrb, rfl, rfl⟩
  · rw [doI4b_storage (doI4a (doI3 (doI2 (doI1 u)))) hrb]
    simp [doI1_eq, doI2_eq, doI3_eq, doI4a_eq, tagBase]
  · rw [doI4b_draw (doI4a (doI3 (doI2 (doI1 s)))) hrb]
    cases he : s.env <;> simp [doI1_eq, doI2_eq, doI3_eq, doI4a_eq, State.drawn, State.afterDraw, he]

/-- What the build leaves where TAG read back `tv` and the trigger value is `trig` (R115, R116). -/
def State.built (u : State) (l0 l1 l2 l3 tv trig : Byte) : State :=
  { u with
    regs := { u.regs with
      opcode := 0x32, cmdStatus := 0x90, issue := 0x01, tag := tv ||| 0x10, lbaR0 := l1
      lbaR1 := l0 ||| ((l3 <<< 2) &&& 0xFC), lbaR2 := (l2 <<< 2) &&& 0xFC, trigger := trig }
    tmp := { u.tmp with t := tv }
    wa := { u.wa with opCounter := some 5 }
    history := u.history ++ [.write u.cfg.addrs.aOpcode 0x32, .write u.cfg.addrs.aCmdStatus 0x90, .write u.cfg.addrs.aIssue 0x01,
      .write u.cfg.addrs.aTag 0x04, .read u.cfg.addrs.aTag tv, .write u.cfg.addrs.aTag (tv ||| 0x10), .write u.cfg.addrs.aLbaR0 l1,
      .write u.cfg.addrs.aLbaR1 (l0 ||| ((l3 <<< 2) &&& 0xFC)), .write u.cfg.addrs.aLbaR2 ((l2 <<< 2) &&& 0xFC),
      .write u.cfg.addrs.aTrigger trig]
    pos := .c1a }

/-- The whole build (R115). -/
theorem doI1_to_doI9 {s u : State} {l0 l1 l2 l3 tv : Byte} (trig : Byte) (h : TagReads s u tv) (h0 : s.wa.lba0 = some l0)
    (h1 : s.wa.lba1 = some l1) (h2 : s.wa.lba2 = some l2) (h3 : s.wa.lba3 = some l3) :
    doI9 (doI8 trig (doI1toI7 s)) = u.built l0 l1 l2 l3 tv trig := by
  obtain ⟨-, hwa, -⟩ := h.frame
  rw [← hwa] at h0 h1 h2 h3
  simp [doI1toI7, doI1_to_doI4b h, doI4c_eq, doI5_some _ l1, doI6_some _ l0 l3, doI7_some _ l2, doI8_eq, doI9_eq, h0, h1, h2, h3,
    State.built, combine, opcRw, stsRw, issRw, tagBase, tagValid, opcntSentinel]

/-- The trigger value of a mode that has one (R100, D7). -/
theorem trigger_of_class {s : State} {m trig : Byte} (hm : s.wa.mode = some m)
    (hmode : (m = 1 ∧ trig = 0x40) ∨ ((m = 2 ∨ m = 3) ∧ trig = 0x80) ∨
      (m ≠ 1 ∧ m ≠ 2 ∧ m ≠ 3 ∧ s.cfg.modeOther = .asMode1 ∧ trig = 0x40)) : s.trigger = some trig := by
  rw [trigger_of_mode hm]
  rcases hmode with ⟨rfl, rfl⟩ | ⟨h23, rfl⟩ | ⟨-, h2, h3, hmo, rfl⟩
  · rfl
  · exact if_pos h23
  · exact trigSel_asMode1 hmo h2 h3

/-- Settles O35: performed at I1 BUILD is the effects of its steps in a row. -/
theorem buildMakesItsTenTransactions : Obligations.BuildMakesItsTenTransactions := by
  intro s u l0 l1 l2 l3 m trig tv hp htag h0 h1 h2 h3 hm hmode
  obtain ⟨hcfg, hwa, hregs, htmp, hhistory⟩ := TagReads.frame htag
  rw [exec, execBuild, atPos_here .i1 s _ hp, trigger_of_class hm hmode]
  dsimp only
  rw [doI1_to_doI9 trig htag h0 h1 h2 h3, State.built, hcfg, hwa, hregs, htmp, hhistory]

/-! ### The run of an ISSUE -/

/-- No step of an operation asserts the reset input (log 21). -/
theorem resetIn_of_step {s t : State} (hr : s.resetIn = false) (hp : s.pos ≠ .idle) (h : step s = .next t) : t.resetIn = false := by
  rcases step_next_cases s t h with ⟨hreset, _⟩ | ⟨_, _, i, _, hx⟩ | ⟨_, hq, _⟩ | ⟨_, hq, _⟩ | ⟨_, hq, _⟩
  · rw [hr] at hreset; cases hreset
  · exact (exec_effect i s t hx).resetIn.trans hr
  all_goals exact absurd hq hp

/-- A run begins with a step of an operation, after which the reset input is still not asserted. -/
theorem runSteps_step {n : Nat} {s t : State} {x : Answer} (hr : s.resetIn = false) (hp : s.pos ≠ .idle) (h : step s = .next t)
    (hrest : t.resetIn = false → runSteps n t = x) : runSteps (n + 1) s = x :=
  (runSteps_succ n s t h).trans (hrest (resetIn_of_step hr hp h))

theorem doI1toI7_trigger (s : State) : (doI1toI7 s).trigger = s.trigger := by
  have hkept : (doI1toI7 s).wa = s.wa ∧ (doI1toI7 s).cfg = s.cfg := by
    simp [doI1toI7, doI1, doI2, doI3, doI4a, doI4b, doI4c, doI5, doI6, doI7, State.regWrite, State.afterRegRead]
  rw [State.trigger, State.trigger, hkept.1, hkept.2]

/-- The eleven steps of the build, one after the other, do what BUILD does at once (R115; log 20). -/
theorem runSteps_build {s : State} {v : Byte} (hr : s.resetIn = false) (hp : s.pos = .i1) (hv : s.trigger = some v) :
    runSteps 11 s = .next (doI9 (doI8 v (doI1toI7 s))) := by
  refine runSteps_step hr (by simp [hp]) (step_at_i1 s hr hp) fun hr => ?_
  refine runSteps_step hr nofun (step_at_i2 _ hr rfl) fun hr => ?_
  refine runSteps_step hr nofun (step_at_i3 _ hr rfl) fun hr => ?_
  refine runSteps_step hr nofun (step_at_i4a _ hr rfl) fun hr => ?_
  refine runSteps_step hr nofun (step_at_i4b _ hr rfl) fun hr => ?_
  refine runSteps_step hr nofun (step_at_i4c _ hr rfl) fun hr => ?_
  refine runSteps_step hr nofun (step_at_i5 _ hr rfl) fun hr => ?_
  refine runSteps_step hr nofun (step_at_i6 _ hr rfl) fun hr => ?_
  refine runSteps_step hr nofun (step_at_i7 _ hr rfl) fun hr => ?_
  refine runSteps_step hr nofun (step_at_i8_of_trigger hr rfl ((doI1toI7_trigger s).trans hv)) fun hr => ?_
  exact runSteps_one _ _ (step_at_i9 _ hr rfl)

/-- A word with `op_sel` 1 is ISSUE (R84). -/
theorem decodeReq_issue (low : BitVec 12) : decodeReq (1#4 ++ low) = .issue := by
  have hop : reqOpSel (1#4 ++ low) = 1#4 := BitVec.extractLsb'_append_eq_left
  unfold decodeReq
  rw [hop]
  rfl

/-- The state in which an ISSUE taken from the port begins its build (R145). -/
def State.issueAccepted (s : State) (q : List ReqWord) : State := { s with port := q, curOp := .issue, pos := .i1 }

theorem step_of_issue {s : State} {q : List ReqWord} {low : BitVec 12} {l0 l1 l2 l3 m st : Byte} (hr : s.resetIn = false)
    (hp : s.pos = .idle) (hb : s.bench = none) (hq : s.port = (1#4 ++ low) :: q) (h0 : s.wa.lba0 = some l0) (h1 : s.wa.lba1 = some l1)
    (h2 : s.wa.lba2 = some l2) (h3 : s.wa.lba3 = some l3) (hm : s.wa.mode = some m) (hst : s.wa.cmdStatus = some st)
    (hmode : m = 1 ∨ m = 2 ∨ m = 3 ∨ s.cfg.modeOther = .asMode1) : step s = .next (s.issueAccepted q) := by
  rw [step_of_request s _ q hr hp hb hq, decodeReq_issue]
  exact issueAcceptedStartsTheBuild { s with port := q } l0 l1 l2 l3 m st hp h0 h1 h2 h3 hm hst hmode

/-- Where the environment shows the byte of TAG first, the read takes it (R91; log 36). -/
theorem tagReads_of_env {s : State} {tv : Byte} {tagRead rest : List Byte}
    (htag : (s.cfg.tagReadback = .storage ∧ tv = 0x04 ∧ tagRead = []) ∨ (s.cfg.tagReadback = .draw ∧ tagRead = [tv]))
    (he : s.env = tagRead ++ rest) : TagReads s { s with env := rest } tv := by
  rcases htag with ⟨hrb, htv, rfl⟩ | ⟨hrb, rfl⟩
  · rw [List.nil_append] at he
    exact .inl ⟨hrb, htv, by rw [← he]⟩
  · exact .inr ⟨hrb, (drawn_of_env s tv rest he).symm, (afterDraw_of_env s tv rest he).symm⟩

/-- Settles O58: the request, the build, an idle check, the pulse, and the stretch from a clear poll to the answer, in a row. -/
theorem issueNetEffect : Obligations.IssueNetEffect := by
  intro s q low l0 l1 l2 l3 m st trig tv a1 b a2 a3 r p tagRead rest hr hp hb hq htag h0 h1 h2 h3 hm hst hmode he hidle hclear
  have hadmitted : m = 1 ∨ m = 2 ∨ m = 3 ∨ s.cfg.modeOther = .asMode1 := by tauto
  have haccept := runSteps_one _ _ (step_of_issue hr hp hb hq h0 h1 h2 h3 hm hst hadmitted)
  have hreads : TagReads (s.issueAccepted q) { s.issueAccepted q with env := [a1, b, a2, a3, r, p] ++ rest } tv :=
    tagReads_of_env htag (he.trans (List.append_assoc ..))
  have hbuild := runSteps_append haccept (runSteps_build hr rfl (trigger_of_class (s := s.issueAccepted q) hm hmode))
  rw [doI1_to_doI9 trig hreads h0 h1 h2 h3] at hbuild
  have hcheck := runSteps_append hbuild (runSteps_check _ a1 b a2 a3 (r :: p :: rest) hr rfl (.inl rfl) rfl)
  rw [hidle] at hcheck
  have hpulse := runSteps_append hcheck (runSteps_pulse _ st r _ hr rfl hst rfl)
  have hfinish := runSteps_append hpulse (runSteps_finish _ p rest hr rfl rfl hclear)
  refine hfinish.trans ?_
  simp [State.built, State.issueAccepted, classify_idle a1 b a2 a3 hidle]

end Sys2Proof.Machine
end
